-- ==== Sys2Proof/Word.lean ====
section
/-! DEFINITION. The plain values of the part: bytes, axis positions, the seven axes and a value for each of them. -/
namespace Sys2Proof

/-- A byte of a frame, a shot record, the configuration image or a drive link message (chapter 12). -/
abbrev Byte := BitVec 8

/-- An axis position: an unsigned whole number of counts in 0–16,777,215 (R1), three bytes wherever it is exchanged. -/
abbrev Position := BitVec 24

/-- The seven axes in the fixed order used everywhere in the part (chapter 1.1). -/
inductive Axis where
  | x | y | elevation | pan | tilt | zoom | focus
deriving DecidableEq, Repr

/-- The axes in axis order. -/
def Axis.all : List Axis := [.x, .y, .elevation, .pan, .tilt, .zoom, .focus]

/-- The index 0–6 of an axis (chapter 1.1). -/
def Axis.index : Axis → Nat
  | .x => 0
  | .y => 1
  | .elevation => 2
  | .pan => 3
  | .tilt => 4
  | .zoom => 5
  | .focus => 6

/-- One value for each of the seven axes. -/
structure PerAxis (α : Type) where
  x : α
  y : α
  elevation : α
  pan : α
  tilt : α
  zoom : α
  focus : α
deriving DecidableEq, Repr

/-- The value of one axis. -/
def PerAxis.get {α : Type} (p : PerAxis α) : Axis → α
  | .x => p.x
  | .y => p.y
  | .elevation => p.elevation
  | .pan => p.pan
  | .tilt => p.tilt
  | .zoom => p.zoom
  | .focus => p.focus

/-- The value of one axis replaced, the others kept. -/
def PerAxis.set {α : Type} (p : PerAxis α) (a : Axis) (v : α) : PerAxis α :=
  match a with
  | .x => { p with x := v }
  | .y => { p with y := v }
  | .elevation => { p with elevation := v }
  | .pan => { p with pan := v }
  | .tilt => { p with tilt := v }
  | .zoom => { p with zoom := v }
  | .focus => { p with focus := v }

/-- A value for each axis by a rule. -/
def PerAxis.ofFn {α : Type} (f : Axis → α) : PerAxis α :=
  ⟨f .x, f .y, f .elevation, f .pan, f .tilt, f .zoom, f .focus⟩

/-- The values in axis order. -/
def PerAxis.toList {α : Type} (p : PerAxis α) : List α := Axis.all.map p.get

end Sys2Proof
end

