-- ==== Sys2Proof/Config.lean ====
section
/-! DEFINITION. What the configuration image fixes (chapter 12.5), the nine fault classes, and the free values:
constants without a body, for what the spec leaves open. -/
namespace Sys2Proof

/-- The five configured values of an axis (R2). -/
structure AxisLimits where
  softMin : Position
  softMax : Position
  /-- V, counts per ms -/
  speed : Nat
  /-- Aq, 1/256 count per ms² -/
  accel : Nat
  /-- E, counts -/
  error : Nat
deriving DecidableEq, Repr

/-- The claim wait choice (R77). -/
inductive ClaimWait where
  | ms250 | s1 | s4 | s16 | never
deriving DecidableEq, Repr

/-- The nine fault classes, in the order of their codes (R161, chapter 12.2). -/
inductive FaultClass where
  | followingError | driveFault | duplicateStation | axisLimit | floorOverlap | peerLost | tallyLost | busContention
  | storeCorrupt
deriving DecidableEq, Repr

/-- The classes in code order. -/
def FaultClass.all : List FaultClass :=
  [.followingError, .driveFault, .duplicateStation, .axisLimit, .floorOverlap, .peerLost, .tallyLost, .busContention,
    .storeCorrupt]

/-- The code 0–8 of a class (chapter 12.2). -/
def FaultClass.code : FaultClass → Nat
  | .followingError => 0
  | .driveFault => 1
  | .duplicateStation => 2
  | .axisLimit => 3
  | .floorOverlap => 4
  | .peerLost => 5
  | .tallyLost => 6
  | .busContention => 7
  | .storeCorrupt => 8

/-- One value for each fault class. -/
structure PerClass (α : Type) where
  followingError : α
  driveFault : α
  duplicateStation : α
  axisLimit : α
  floorOverlap : α
  peerLost : α
  tallyLost : α
  busContention : α
  storeCorrupt : α
deriving DecidableEq, Repr

/-- The value of one class. -/
def PerClass.get {α : Type} (p : PerClass α) : FaultClass → α
  | .followingError => p.followingError
  | .driveFault => p.driveFault
  | .duplicateStation => p.duplicateStation
  | .axisLimit => p.axisLimit
  | .floorOverlap => p.floorOverlap
  | .peerLost => p.peerLost
  | .tallyLost => p.tallyLost
  | .busContention => p.busContention
  | .storeCorrupt => p.storeCorrupt

/-- A value for each class by a rule. -/
def PerClass.ofFn {α : Type} (f : FaultClass → α) : PerClass α :=
  ⟨f .followingError, f .driveFault, f .duplicateStation, f .axisLimit, f .floorOverlap, f .peerLost, f .tallyLost,
    f .busContention, f .storeCorrupt⟩

/-- The value of one class replaced, the others kept. -/
def PerClass.set {α : Type} (p : PerClass α) (c : FaultClass) (v : α) : PerClass α :=
  PerClass.ofFn fun d => if d = c then v else p.get d

/-- The severity of a class (R162). -/
inductive Severity where
  | stop | report
deriving DecidableEq, Repr

/-- Severity and mask of a class (R162). -/
structure ClassSetting where
  severity : Severity
  masked : Bool
deriving DecidableEq, Repr

/-- The values of a valid configuration image (R177, chapter 12.5). -/
structure Configuration where
  axes : PerAxis AxisLimits
  /-- r, mm -/
  halfWidth : Nat
  /-- L -/
  liveRate : Nat
  /-- S -/
  step : Nat
  /-- S_f -/
  faultStep : Nat
  /-- W, servo periods -/
  blanking : Nat
  claimWait : ClaimWait
  /-- the group wait limit, ms -/
  groupWait : Nat
  /-- the own group start delay G, ms -/
  startDelay : Nat
  classes : PerClass ClassSetting
  autoOnline : Bool
deriving DecidableEq, Repr

/-- FREE VALUE (R25, log 6): after a write cut off by a reset or a power failure, whether byte `i` of the area is the new
content's (else the old content's). The first argument is the state's counter of drawn free values. -/
opaque Config.tornByteIsNew : Nat → Nat → Bool

/-- FREE VALUE (R24, log 7): whether the area of a record whose verify failed passes the next start-up check as EMPTY. -/
opaque Config.failedAreaPasses : Nat → Bool

/-- FREE VALUE (R4, log 8): whether a drive status byte other than 0x00 and 0x01 is recorded as FAULT. -/
opaque Config.unstatedStatusIsFault : Byte → Bool

end Sys2Proof
end

