-- ==== Sys2Proof/Syntax.lean ====
section
/-! DEFINITION. The commands of the part: one constructor for each row of spec/opcode_table.json, with the fields of the
frame, message or event it stands for, as received (chapter 12 gives the fields' places). -/
namespace Sys2Proof

/-- The destination and source bytes of a frame's header, as received (chapter 12.1). -/
structure Header where
  dest : Byte
  source : Byte
deriving DecidableEq, Repr

/-- The payload of a CUE (chapter 12.2). -/
structure CuePayload where
  tag : Byte
  shot : Byte
  mode : Byte
  group : Byte
  members : BitVec 16
deriving DecidableEq, Repr

/-- The payload of a READY (chapter 12.2). -/
structure ReadyPayload where
  group : Byte
  tag : Byte
  duration : BitVec 16
  delay : Byte
  flags : Byte
deriving DecidableEq, Repr

/-- A record body, 41 bytes (chapter 12.4); the label field has 16 bytes. -/
structure RecordBody where
  mask : Byte
  options : Byte
  moveTime : BitVec 16
  targets : PerAxis Position
  label : List Byte
deriving DecidableEq, Repr

/-- One six-byte rectangle slot of a STATE payload (chapter 12.3). -/
structure ClaimSlot where
  x0 : Byte
  y0 : Byte
  x1 : Byte
  y1 : Byte
  attributes : Byte
  rank : Byte
deriving DecidableEq, Repr

/-- The payload of a STATE frame (chapter 12.3); it has four rectangle slots. -/
structure StatePayload where
  status : Byte
  headTag : Byte
  headStage : Byte
  listLength : Byte
  floorX : Position
  floorY : Position
  sticky : BitVec 16
  recur : BitVec 16
  claimCount : Byte
  slots : List ClaimSlot
deriving DecidableEq, Repr

/-- A reply of a drive: axis index, actual position, status byte and check word, as received (R4). -/
structure DriveReply where
  index : Byte
  position : Position
  status : Byte
  check : BitVec 16
deriving DecidableEq, Repr

/-- The commands: one constructor for each row of spec/opcode_table.json. -/
inductive Instr where
  /-- POWER_ON (R175) -/
  | powerOn
  /-- PIN_RESET (R175) -/
  | pinReset
  /-- RESET_ASSERTED (R175) -/
  | resetAsserted
  /-- POWER_LOSS (R175) -/
  | powerLoss
  /-- CONFIG_TRANSFER_ABANDON (R176) -/
  | configTransferAbandon
  /-- CONFIGURATION_CHECK (R177): the strap pins, strap 0 the least significant bit, and the bytes of the image read -/
  | configurationCheck (straps : BitVec 5) (image : List Byte)
  /-- START_UP_CHECK (R29) -/
  | startUpCheck
  /-- POSITION_READ_INTERVAL (R9) -/
  | positionReadInterval
  /-- DRIVE_REPLY (R4) -/
  | driveReply (reply : DriveReply)
  /-- SERVO_PERIOD_EXPIRY (R114) -/
  | servoPeriodExpiry
  /-- BLANKING_WINDOW_EXPIRY (R129) -/
  | blankingWindowExpiry
  /-- FRAME_DISCARDED (R143) -/
  | frameDiscarded
  /-- DUPLICATE_STATION_EVENT (R155) -/
  | duplicateStationEvent
  /-- FRAME_HEARD_NOT_TAKEN (R142) -/
  | frameHeardNotTaken (header : Header)
  /-- CUE (R35) -/
  | cue (header : Header) (payload : CuePayload)
  /-- TAKE (R37) -/
  | take (header : Header) (tag : Byte)
  /-- GROUP_TAKE (R38) -/
  | groupTake (header : Header) (group : Byte)
  /-- CANCEL naming a tag (R39) -/
  | cancel (header : Header) (tag : Byte)
  /-- CANCEL naming "all" (R41) -/
  | cancelAll (header : Header)
  /-- HOLD (R121) -/
  | hold (header : Header)
  /-- RESUME (R121) -/
  | resume (header : Header)
  /-- STORE_SHOT (R19) -/
  | storeShot (header : Header) (shot : Byte) (body : RecordBody)
  /-- CAPTURE_SHOT (R20): the label field's 16 bytes -/
  | captureShot (header : Header) (shot : Byte) (label : List Byte)
  /-- ERASE_SHOT (R21) -/
  | eraseShot (header : Header) (shot : Byte)
  /-- READ_SHOT (R26) -/
  | readShot (header : Header) (first : Byte) (count : Byte)
  /-- WRITE_COMPLETION (R24): whether the programmed area verified -/
  | writeCompletion (verified : Bool)
  /-- CLEAR_FAULTS (R170): the set of classes, bit i the class of code i -/
  | clearFaults (header : Header) (classes : BitVec 16)
  /-- FORGET_PEER (R159) -/
  | forgetPeer (header : Header) (number : Byte)
  /-- ONLINE (R179) -/
  | online (header : Header)
  /-- RESTART (R182) -/
  | restart (header : Header)
  /-- TALLY (R133): the program set, bit n − 1 pedestal n -/
  | tally (header : Header) (program : BitVec 16)
  /-- STATE_FRAME (R157) -/
  | stateFrame (header : Header) (payload : StatePayload)
  /-- READY (R99) -/
  | ready (header : Header) (payload : ReadyPayload)
  /-- TRANSMISSION_START (R151): the bus's idle time in µs at this moment -/
  | transmissionStart (idle : Nat)
  /-- TRANSMISSION_COMPLETION (R144) -/
  | transmissionCompletion
  /-- ABANDON (R153) -/
  | abandon
  /-- SPENT_IDLE_EXPIRY (R152) -/
  | spentIdleExpiry
  /-- SETTLE_EXPIRY (R81) -/
  | settleExpiry
  /-- CLAIM_WAIT_EXPIRY (R77) -/
  | claimWaitExpiry
  /-- GROUP_WAIT_EXPIRY (R107) -/
  | groupWaitExpiry
  /-- START_DELAY_EXPIRY (R105) -/
  | startDelayExpiry
  /-- TALLY_AGE_EXPIRY (R135) -/
  | tallyAgeExpiry
  /-- PEER_AGE_EXPIRY (R158): the pedestal whose age timer expires -/
  | peerAgeExpiry (number : Nat)
  /-- HEARTBEAT_EXPIRY (R149) -/
  | heartbeatExpiry
  /-- JOIN_TIMER_EXPIRY (R180) -/
  | joinTimerExpiry
deriving DecidableEq, Repr

end Sys2Proof
end

