-- ==== Sys2Proof/Machine/State.lean ====
section
/-! DEFINITION. Every piece of state the spec gives the 620, block by block (00_scope, "Blocks"), as plain data, and the
state right after reset. -/
namespace Sys2Proof.Machine

/-! ### Station control (R174) -/

/-- Where the part stands between supply and hearing (R175). -/
inductive Phase where
  /-- the supply is not valid -/
  | unpowered
  /-- the supply is valid and the reset pin is held asserted -/
  | heldInReset
  /-- step 2 of the start sequence: the straps and the image are being read -/
  | readingConfiguration
  /-- step 3 of the start sequence: the shot store's start-up check -/
  | checkingStore
  /-- step 4 and after: the bus interface hears frames -/
  | hearing
deriving DecidableEq, Repr

/-- The station states (R174). -/
inductive StationState where
  | offline | joining | active | faultStop
deriving DecidableEq, Repr

/-- Station control, its pins (R184) and the drive-enable output (R130). -/
structure Control where
  phase : Phase
  /-- the reset pin RESET_L is held asserted (R175, R184) -/
  resetPin : Bool
  station : StationState
  /-- the station number 0–31 (R176) -/
  number : Nat
  /-- the configuration's values when the image is valid (R177) -/
  config : Option Configuration
  /-- abandoned transfers of the configuration image (R176) -/
  transferAbandons : Nat
  readEnded : Bool
  identityConflict : Bool
  joinTimer : Bool
  restartPending : Bool
  driveEnable : Bool
  onlinePin : Bool
  faultPin : Bool
  configBadPin : Bool
  idConflictPin : Bool
deriving DecidableEq, Repr

/-! ### Axis port -/

/-- The drive status of an axis (R4). -/
inductive DriveStatus where
  | ok | fault
deriving DecidableEq, Repr

/-- A request on the drive link (chapter 1.3). -/
inductive DriveRequest where
  | setpoint (axis : Axis) (position : Position)
  | read (axis : Axis)
deriving DecidableEq, Repr

/-- An exchange: the setpoint each axis's reply is paired with (R6), and the position of each accepted reply (R4). -/
structure Exchange where
  paired : PerAxis Position
  replies : PerAxis (Option Position)
deriving DecidableEq, Repr

/-- The axis port (R3 to R10, R128). -/
structure AxisPort where
  lastSetpoint : PerAxis Position
  lastActual : PerAxis Position
  driveStatus : PerAxis DriveStatus
  /-- the axes answered in the start-up position read (R9) -/
  answered : PerAxis Bool
  /-- the open exchange (R4) -/
  exchange : Option Exchange
  /-- the exchange closed last (R129) -/
  closed : Option Exchange
  /-- the servo period timer is running (R5) -/
  servoTimer : Bool
  /-- the blanking windows of all axes, alike (R128): none when stopped, else the servo period expiries still to come;
  `some 0` at the expiry itself, until BLANKING_WINDOW_EXPIRY has made the check of R129 (log 12) -/
  blanking : Option Nat
  /-- the requests sent at the latest sending (log 18) -/
  requests : List DriveRequest
deriving DecidableEq, Repr

/-! ### Tally monitor (R132) -/

/-- The tally status (R132). -/
inductive TallyStatus where
  | current | lost
deriving DecidableEq, Repr

/-- The tally monitor (R132). -/
structure Tally where
  onAir : Bool
  status : TallyStatus
  timer : Bool
deriving DecidableEq, Repr

/-! ### Floor claims (chapter 5) -/

/-- A rectangle of the floor grid by its inclusive cell ranges (R13). -/
structure Rect where
  x0 : Nat
  x1 : Nat
  y0 : Nat
  y1 : Nat
deriving DecidableEq, Repr

/-- The kind of a claim rectangle (R70). -/
inductive ClaimKind where
  | parked | leg | nextLeg
deriving DecidableEq, Repr

/-- Priority and retry count of a pending claim (R70, R74). -/
structure Rank where
  priority : Nat
  retry : Nat
deriving DecidableEq, Repr

/-- HELD, or PENDING with its rank (R70). -/
inductive ClaimState where
  | held
  | pending (rank : Rank)
deriving DecidableEq, Repr

/-- A claim rectangle as a STATE frame announces it (chapter 12.3). -/
structure Claim where
  rect : Rect
  kind : ClaimKind
  state : ClaimState
deriving DecidableEq, Repr

/-- A rectangle of the own claim set with its leg number, 0 for PARKED (R70). The owner is the head entry for LEG and the
second entry for NEXT_LEG. -/
structure OwnClaim where
  claim : Claim
  leg : Nat
deriving DecidableEq, Repr

/-- The claim manager (R70, R77, R78, R84). -/
structure ClaimManager where
  own : List OwnClaim
  /-- the overlap set, ascending (R84) -/
  overlap : List Nat
  settleTimer : Bool
  claimWaitTimer : Bool
deriving DecidableEq, Repr

/-- A peer entry is LIVE, its age timer running, or LOST, its age timer stopped (R156). -/
inductive PeerStatus where
  | live | lost
deriving DecidableEq, Repr

/-- A peer entry (R156). -/
structure PeerEntry where
  number : Nat
  status : PeerStatus
  claims : List Claim
deriving DecidableEq, Repr

/-! ### Shot store (R16, R17, R23) -/

/-- A route hint (R16). -/
inductive RouteHint where
  | xFirst | yFirst | either
deriving DecidableEq, Repr

/-- The content of a VALID record (R16): a target for each present axis. -/
structure ShotContent where
  targets : PerAxis (Option Position)
  moveTime : Option (BitVec 16)
  routeHint : RouteHint
  livePermitted : Bool
  label : List Byte
deriving DecidableEq, Repr

/-- The content of a record (R16). -/
inductive Record where
  | empty
  | valid (content : ShotContent)
deriving DecidableEq, Repr

/-- The write-in-flight marker (R23). -/
structure WriteInFlight where
  shot : Nat
  content : Record
deriving DecidableEq, Repr

/-- The shot store: the nonvolatile areas that differ from a sound EMPTY one, by record number (`Areas.wf`), the corrupt
marks, ascending, and the write-in-flight marker. -/
structure ShotStore where
  areas : List (Nat × List Byte)
  corrupt : List Nat
  write : Option WriteInFlight
deriving DecidableEq, Repr

/-! ### Plans (R52) -/

/-- The direction of an axis's move (R53). -/
inductive Direction where
  | up | down | stay
deriving DecidableEq, Repr

/-- A floor position in mm. -/
structure Point where
  x : Nat
  y : Nat
deriving DecidableEq, Repr

/-- A leg: its moving axis (X or Y), start, end, rectangle and T_leg (R52, R58). -/
structure Leg where
  axis : Axis
  start : Point
  stop : Point
  rect : Rect
  duration : Nat
deriving DecidableEq, Repr

/-- A route: its legs and its leg split N1, N2 in ms (R60); 0 where there is no such leg. -/
structure Route where
  legs : List Leg
  n1 : Nat
  n2 : Nat
deriving DecidableEq, Repr

/-- A plan (R52). -/
structure Plan where
  start : PerAxis Position
  target : PerAxis Position
  distance : PerAxis Nat
  direction : PerAxis Direction
  axisDuration : PerAxis Nat
  startFootprint : Rect
  /-- the own N of R59 -/
  duration : Nat
  candidates : List Route
  /-- the index of the chosen candidate (R63) -/
  chosen : Option Nat
  /-- the group's common N (R64) -/
  common : Option Nat
deriving DecidableEq, Repr

/-! ### Cue list (R31) -/

/-- The start mode of an entry (R31). -/
inductive StartMode where
  | immediate | onTake | group
deriving DecidableEq, Repr

/-- The stage of an entry (R31). -/
inductive Stage where
  | queued | routing | claiming | claimed | groupWait | running
deriving DecidableEq, Repr

/-- The reasons of a FAILED report (R36). -/
inductive Reason where
  | badShot | listFull | duplicateTag | unknownTag | badGroup | duplicateGroup | planRange | floorTimeout | groupTimeout
  | groupAbandoned | fault | notActive
deriving DecidableEq, Repr

/-- The outcomes of a CUE_REPORT (R36). -/
inductive CueOutcome where
  | started | completed | deferred | cancelled
  | failed (reason : Reason)
deriving DecidableEq, Repr

/-- A cue entry (R31). -/
structure CueEntry where
  tag : Byte
  shot : Nat
  priority : Nat
  mode : StartMode
  group : Option Byte
  take : Bool
  stage : Stage
  retry : Nat
  copy : Option ShotContent
  plan : Option Plan
  deferralReported : Bool
  ending : Option CueOutcome
deriving DecidableEq, Repr

/-! ### Group coordinator (R97) -/

/-- The state of a group record (R97). -/
inductive GroupState where
  | collecting | starting | ended
deriving DecidableEq, Repr

/-- A member slot: the member's number and, when its READY is recorded, the N and G it carried (R97). -/
structure Slot where
  number : Nat
  ready : Option (Nat × Nat)
deriving DecidableEq, Repr

/-- A group record; its member set is the numbers of its slots, ascending (R97). -/
structure GroupRecord where
  group : Byte
  slots : List Slot
  state : GroupState
  commonN : Option Nat
  commonG : Option Nat
deriving DecidableEq, Repr

/-- The group coordinator: the records, the group wait timer and the start delay timer with its limit (R101, R104). -/
structure Groups where
  records : List GroupRecord
  waitTimer : Bool
  startDelay : Option Nat
deriving DecidableEq, Repr

/-! ### Profile generator (R112) -/

/-- The motion state (R112). -/
inductive MotionState where
  | idle | running | held | stopping
deriving DecidableEq, Repr

/-- The kind of a stop (R112). -/
inductive StopKind where
  | cancel | restart | fault
deriving DecidableEq, Repr

/-- The running plan (R68): the plan with its chosen route, the move's N, and the live-permitted flag of its shot copy. -/
structure RunningPlan where
  plan : Plan
  route : Route
  duration : Nat
  livePermitted : Bool
deriving DecidableEq, Repr

/-- The profile generator (R112). -/
structure Profile where
  motion : MotionState
  plan : Option RunningPlan
  /-- profile time, 1/256 ms; 0 while no move exists -/
  time : Nat
  rate : Nat
  hold : Bool
  stopKind : Option StopKind
  leg1Passed : Bool
deriving DecidableEq, Repr

/-! ### Fault unit (R163) -/

/-- The flags of a fault class (R163). -/
structure FaultFlags where
  sticky : Bool
  recur : Bool
deriving DecidableEq, Repr

/-- What a raise names (R161). -/
inductive FaultName where
  | nothing
  | axis (axis : Axis)
  | peer (number : Nat)
  | shot (number : Nat)
deriving DecidableEq, Repr

/-! ### Bus interface (R145) -/

/-- The outcomes of a STORE_REPORT (chapter 2.2). -/
inductive StoreOutcome where
  | written | unchanged | busy | notIdle | badNumber | badRecord | writeFailed
deriving DecidableEq, Repr

/-- A report (R146). -/
inductive Report where
  | cue (tag : Byte) (outcome : CueOutcome)
  | store (shot : Byte) (outcome : StoreOutcome)
  | fault (fault : FaultClass) (name : FaultName)
deriving DecidableEq, Repr

/-- A READY of this station in the READY FIFO (R101, R108). A READY marked `orphan` is a readiness whose entry has left
GROUP_WAIT while it was in transmission: it is not sent again after an abandon, and no record takes it (R102, R103, R106). -/
structure QueuedReady where
  group : Byte
  tag : Byte
  duration : Nat
  delay : Nat
  withdrawn : Bool
  orphan : Bool
deriving DecidableEq, Repr

/-- The read cursor; empty when the remaining count is 0 (R26). -/
structure ReadCursor where
  next : Nat
  remaining : Nat
deriving DecidableEq, Repr

/-- The fields of a STATE frame as they stood at its transmission start (R150). -/
structure StateFrame where
  station : StationState
  motion : MotionState
  onAir : Bool
  floorX : Position
  floorY : Position
  claims : List Claim
  head : Option (Byte × Stage)
  listLength : Nat
  faults : PerClass FaultFlags
  reportsLost : Bool
  hold : Bool
deriving DecidableEq, Repr

/-- The status of a SHOT_DATA (R27). -/
inductive ShotDataStatus where
  | empty | valid | noSuchShot
deriving DecidableEq, Repr

/-- A frame the part sends (R142). -/
inductive OutFrame where
  | ready (frame : QueuedReady)
  | state (frame : StateFrame)
  | report (report : Report)
  | shotData (shot : Nat) (status : ShotDataStatus) (body : List Byte)
deriving DecidableEq, Repr

/-- A transmission in progress: the frame, its bytes, and what has happened since its transmission start: pending legs
added to the own claim set (R78), a report discarded (R147), the read cursor replaced (R27). -/
structure Transmission where
  frame : OutFrame
  bytes : List Byte
  legsAdded : Bool
  reportDiscarded : Bool
  cursorReplaced : Bool
deriving DecidableEq, Repr

/-- The bus interface (R145 to R154). -/
structure BusInterface where
  readyFifo : List QueuedReady
  stateMarker : Bool
  reportFifo : List Report
  cursor : ReadCursor
  reportsLost : Bool
  heartbeat : Bool
  spent : Bool
  abandonCount : Nat
  transmission : Option Transmission
  /-- BUS_DE (R184) -/
  driverEnable : Bool
deriving DecidableEq, Repr

/-! ### The whole part -/

/-- The state of the part, with the model's own counter of drawn free values (`free`, log 6) and the queue of the
commands that wait (log 1). -/
structure State where
  control : Control
  port : AxisPort
  bus : BusInterface
  tally : Tally
  peers : List PeerEntry
  store : ShotStore
  cues : List CueEntry
  claims : ClaimManager
  groups : Groups
  profile : Profile
  faults : PerClass FaultFlags
  free : Nat
  pending : List Instr
deriving DecidableEq, Repr

/-- Why a command would stop the machine: never. The nine fault classes of the spec (R161) are state, not stops, so this
type has no value and a proof may use that (safe). -/
inductive Fault where
deriving DecidableEq, Repr

/-- Why a command would have no meaning. -/
inductive Refusal where
  /-- Raised only by an arm of `exec` for a command without a meaning; every command has one, so no arm raises it (safe). -/
  | notModelled (mnemonic : String)
deriving DecidableEq, Repr

/-- The one value on every axis. -/
def everyAxis {α : Type} (v : α) : PerAxis α := PerAxis.ofFn fun _ => v

/-- No fault class raised (R163). -/
def noFaults : PerClass FaultFlags := PerClass.ofFn fun _ => ⟨false, false⟩

/-- The machine right after power-on or pin reset: the end of step 1 of the start sequence (R175). The straps, the image,
the shot store and the drives have yet to be read. Values the spec does not give are named in log 4, 5 and 6. -/
def State.reset : State where
  control :=
    { phase := .readingConfiguration
      resetPin := false
      station := .offline
      number := 0
      config := none
      transferAbandons := 0
      readEnded := false
      identityConflict := false
      joinTimer := false
      restartPending := false
      driveEnable := false
      onlinePin := false
      faultPin := false
      configBadPin := false
      idConflictPin := false }
  port :=
    { lastSetpoint := everyAxis 0
      lastActual := everyAxis 0
      driveStatus := everyAxis .ok
      answered := everyAxis false
      exchange := none
      closed := none
      servoTimer := false
      blanking := none
      requests := [] }
  bus :=
    { readyFifo := []
      stateMarker := false
      reportFifo := []
      cursor := ⟨0, 0⟩
      reportsLost := false
      heartbeat := false
      spent := false
      abandonCount := 0
      transmission := none
      driverEnable := false }
  tally := { onAir := true, status := .current, timer := false }
  peers := []
  store := { areas := [], corrupt := [], write := none }
  cues := []
  claims := { own := [], overlap := [], settleTimer := false, claimWaitTimer := false }
  groups := { records := [], waitTimer := false, startDelay := none }
  profile :=
    { motion := .idle
      plan := none
      time := 0
      rate := 256
      hold := false
      stopKind := none
      leg1Passed := false }
  faults := noFaults
  free := 0
  pending := []

end Sys2Proof.Machine
end

