-- ==== Sys2Proof/Machine/Operands.lean ====
section
/-! DEFINITION. How the fields of the commands are read: addresses, the CUE mode byte, READY flags, sets of pedestals and
of classes, record bodies, claim rectangles (chapter 12, R185 to R187). -/
namespace Sys2Proof.Machine

/-- An address from its byte: bits 0–4; the reserved upper three bits take no part (R185). -/
def address (b : Byte) : Nat := (b.extractLsb' 0 5).toNat

/-- The destination address of a frame. -/
def destOf (h : Header) : Nat := address h.dest

/-- The source address of a frame. -/
def sourceOf (h : Header) : Nat := address h.source

/-- The destination that means all pedestals (chapter "The pedestal bus and its stations"). -/
def allPedestals : Nat := 30

/-- The cue station's address. -/
def cueStation : Nat := 0

/-- The tally station's address. -/
def tallyStation : Nat := 31

/-- A pedestal's number, 1–16. -/
def isPedestal (n : Nat) : Bool := decide (1 ≤ n ∧ n ≤ 16)

/-- A set of pedestals: bit n − 1 stands for pedestal n (chapter 12). -/
def inPedestalSet (w : BitVec 16) (n : Nat) : Bool := isPedestal n && w.getLsbD (n - 1)

/-- The numbers of a set of pedestals, ascending. -/
def pedestalsOf (w : BitVec 16) : List Nat := (List.range' 1 16).filter fun n => inPedestalSet w n

/-- A set of fault classes: bit i stands for the class with code i; bits beyond 8 are reserved (chapter 12, R185). -/
def inClassSet (w : BitVec 16) (c : FaultClass) : Bool := w.getLsbD c.code

/-- The priority in a CUE's mode byte: bits 0–1 (chapter 12.2). -/
def cuePriority (mode : Byte) : Nat := (mode.extractLsb' 0 2).toNat

/-- The start mode in a CUE's mode byte: bits 2–3; none for code 3 (chapter 12.2, R185). -/
def cueStartMode (mode : Byte) : Option StartMode :=
  match (mode.extractLsb' 2 2).toNat with
  | 0 => some .immediate
  | 1 => some .onTake
  | 2 => some .group
  | _ => none

/-- The withdrawn flag of a READY: bit 0 of its flags byte (chapter 12.2). -/
def readyWithdrawn (p : ReadyPayload) : Bool := p.flags.getLsbD 0

/-! ### Record bodies (chapter 12.4) -/

/-- Whether the axis mask byte marks an axis present. -/
def maskHas (mask : Byte) (a : Axis) : Bool := mask.getLsbD a.index

/-- The label in a label field: what stands before the first null, at most 16 characters (R16). -/
def labelOf (field : List Byte) : List Byte := (field.take 16).takeWhile fun b => b != 0

/-- A printable character, 0x20–0x7E (R16). -/
def printable (b : Byte) : Bool := decide (0x20 ≤ b.toNat ∧ b.toNat ≤ 0x7E)

/-- Every character before the label's end is printable (R19, R20). -/
def labelPrintable (field : List Byte) : Bool := (labelOf field).all printable

/-- The route hint in an options byte: bits 0–1; none for code 3 (R187). -/
def routeHintOf (options : Byte) : Option RouteHint :=
  match (options.extractLsb' 0 2).toNat with
  | 0 => some .xFirst
  | 1 => some .yFirst
  | 2 => some .either
  | _ => none

/-- The live-permitted flag in an options byte: bit 2. -/
def optionsLive (options : Byte) : Bool := options.getLsbD 2

/-- The move-time-present flag in an options byte: bit 3. -/
def optionsMoveTime (options : Byte) : Bool := options.getLsbD 3

/-- The move time a body carries, when its present flag is set. -/
def bodyMoveTime (b : RecordBody) : Option (BitVec 16) := if optionsMoveTime b.options then some b.moveTime else none

/-- The route hint names one of the three, and a move time marked present is not 0: the tests that a stored VALID form must
pass (R187) and that a STORE_SHOT must pass beside its label's (R19). -/
def bodySound (b : RecordBody) : Bool := (routeHintOf b.options).isSome && bodyMoveTime b != some 0

/-- The content a body stands for: the targets of the present axes only, the move time only when present, the label only
(R16, R19). -/
def bodyContent (b : RecordBody) : ShotContent :=
  { targets := PerAxis.ofFn fun a => if maskHas b.mask a then some (b.targets.get a) else none
    moveTime := bodyMoveTime b
    routeHint := (routeHintOf b.options).getD .either
    livePermitted := optionsLive b.options
    label := labelOf b.label }

/-- The code of a route hint (chapter 12.4). -/
def RouteHint.code : RouteHint → Nat
  | .xFirst => 0
  | .yFirst => 1
  | .either => 2

/-- One bit of a byte built from flags. -/
def flagBit (b : Bool) (i : Nat) : Nat := if b then 2 ^ i else 0

/-- The body of a content, every field that is no part of the content 0 (R187). -/
def contentBody (c : ShotContent) : RecordBody :=
  { mask := BitVec.ofNat 8 ((Axis.all.map fun a => flagBit (c.targets.get a).isSome a.index).sum)
    options := BitVec.ofNat 8 (c.routeHint.code + flagBit c.livePermitted 2 + flagBit c.moveTime.isSome 3)
    moveTime := c.moveTime.getD 0
    targets := PerAxis.ofFn fun a => (c.targets.get a).getD 0
    label := c.label ++ List.replicate (16 - c.label.length) 0 }

/-! ### Claim rectangles (chapter 12.3, R186) -/

/-- A cell from its byte: bits 0–4 (R186). -/
def cellOf (b : Byte) : Nat := (b.extractLsb' 0 5).toNat

/-- The kind in an attributes byte: bits 0–1, code 3 taken as LEG (R186). -/
def claimKindOf (attributes : Byte) : ClaimKind :=
  match (attributes.extractLsb' 0 2).toNat with
  | 0 => .parked
  | 2 => .nextLeg
  | _ => .leg

/-- The rank in a rank byte: retry count in bits 0–3, priority in bits 4–5 (chapter 12.3). -/
def rankOf (b : Byte) : Rank := ⟨(b.extractLsb' 4 2).toNat, (b.extractLsb' 0 4).toNat⟩

/-- The rectangle of a slot, each range from the lesser to the greater cell (R186). -/
def slotRect (s : ClaimSlot) : Rect :=
  ⟨min (cellOf s.x0) (cellOf s.x1), max (cellOf s.x0) (cellOf s.x1), min (cellOf s.y0) (cellOf s.y1),
    max (cellOf s.y0) (cellOf s.y1)⟩

/-- The claim of a slot: bit 2 of the attributes is PENDING, and only then is the rank byte read (R186). -/
def slotClaim (s : ClaimSlot) : Claim :=
  ⟨slotRect s, claimKindOf s.attributes, if s.attributes.getLsbD 2 then .pending (rankOf s.rank) else .held⟩

/-- The claim set of a STATE payload: a count above 4 is taken as 4, and later slots are not read (R186). -/
def payloadClaims (p : StatePayload) : List Claim := (p.slots.take (min p.claimCount.toNat 4)).map slotClaim

end Sys2Proof.Machine
end

