-- ==== Sys2Proof/Machine/Formats.lean ====
section
/-! DEFINITION. Byte layouts and check words: drive link messages (R4), shot records (chapter 12.4), the configuration
image (chapter 12.5, R177, R188), and the frames the part sends (chapter 12, R185). -/
namespace Sys2Proof.Machine

/-! ### Check word and byte order -/

/-- The bits of a byte, most significant first. -/
def bitsOf (b : Byte) : List Bool :=
  [b.getLsbD 7, b.getLsbD 6, b.getLsbD 5, b.getLsbD 4, b.getLsbD 3, b.getLsbD 2, b.getLsbD 1, b.getLsbD 0]

/-- The shift register of the check word, polynomial x^16+x^12+x^5+1, one message bit at a time (R143). -/
def crcShift : List Bool → BitVec 16 → BitVec 16
  | [], c => c
  | b :: bs, c => if c.msb != b then crcShift bs ((c <<< 1) ^^^ 0x1021#16) else crcShift bs (c <<< 1)

/-- The check word: initial value all ones, each byte most significant bit first, no final inversion (R143). -/
def crc16 (l : List Byte) : BitVec 16 := crcShift (l.flatMap bitsOf) 0xFFFF#16

/-- Two bytes, most significant first (chapter 12). -/
def be2 (w : BitVec 16) : List Byte := [w.extractLsb' 8 8, w.extractLsb' 0 8]

/-- Three bytes, most significant first. -/
def be3 (w : Position) : List Byte := [w.extractLsb' 16 8, w.extractLsb' 8 8, w.extractLsb' 0 8]

/-- A byte of a list of bytes. -/
def byteAt (l : List Byte) (i : Nat) : Byte := l.getD i 0

/-- The two-byte field at an offset. -/
def word2 (l : List Byte) (i : Nat) : BitVec 16 := byteAt l i ++ byteAt l (i + 1)

/-- The three-byte field at an offset. -/
def word3 (l : List Byte) (i : Nat) : Position := byteAt l i ++ byteAt l (i + 1) ++ byteAt l (i + 2)

/-- A message followed by its check word, most significant byte first. -/
def withCheck (l : List Byte) : List Byte := l ++ be2 (crc16 l)

/-- The last two of `n + 2` bytes are the check word of the first `n`. -/
def checkHolds (l : List Byte) (n : Nat) : Bool := word2 l n == crc16 (l.take n)

/-! ### Drive link (R4) -/

/-- The check word of a reply: over the axis index, the actual position and the status byte (R4). -/
def replyCheck (r : DriveReply) : BitVec 16 := crc16 ([r.index] ++ be3 r.position ++ [r.status])

/-- The bytes of a request: the axis index, in a setpoint request the setpoint, and the check word (R4). R4 lays out the
fields that the check word is computed over and not where the word itself stands: the model puts it after them (DESIGN CHOICE,
log 30). -/
def requestBytes : DriveRequest → List Byte
  | .setpoint a p => withCheck ([BitVec.ofNat 8 a.index] ++ be3 p)
  | .read a => withCheck [BitVec.ofNat 8 a.index]

/-- The axis of an index; none outside 0–6 (R4). -/
def axisOfIndex (n : Nat) : Option Axis := Axis.all[n]?

/-- The status a status byte stands for: 0x00 OK, 0x01 FAULT; any other value is left open by the spec (log 8). -/
def driveStatusOf (b : Byte) : DriveStatus :=
  if b = 0x00 then .ok else if b = 0x01 then .fault else if Config.unstatedStatusIsFault b then .fault else .ok

/-! ### Shot records (chapter 12.4) -/

/-- The 41 bytes of a record body. -/
def bodyBytes (b : RecordBody) : List Byte :=
  [b.mask, b.options] ++ be2 b.moveTime ++ b.targets.toList.flatMap be3 ++ b.label

/-- The record body in 41 bytes that start at an offset. -/
def bodyAt (l : List Byte) (i : Nat) : RecordBody :=
  { mask := byteAt l i
    options := byteAt l (i + 1)
    moveTime := word2 l (i + 2)
    targets := PerAxis.ofFn fun a => word3 l (i + 4 + 3 * a.index)
    label := (List.range 16).map fun k => byteAt l (i + 25 + k) }

/-- The 41 zero bytes of an EMPTY record's body. -/
def emptyBody : List Byte := List.replicate 41 0

/-- The stored form of a record: status, body, check word over both; 44 bytes (chapter 12.4). -/
def storedForm : Record → List Byte
  | .empty => withCheck (0x00 :: emptyBody)
  | .valid c => withCheck (0x01 :: bodyBytes (contentBody c))

/-- A stored form passes the start-up check: its check word matches, its status byte is 0x00 or 0x01, and a VALID form
has a route hint and no move time of 0 marked present (R29, R187). -/
def areaSound (area : List Byte) : Bool :=
  area.length == 44 && checkHolds area 42 &&
    (byteAt area 0 == 0x00 || (byteAt area 0 == 0x01 && bodySound (bodyAt area 1)))

/-- The content a stored form stands for (R16). -/
def areaRecord (area : List Byte) : Record :=
  if byteAt area 0 = 0x01 then .valid (bodyContent (bodyAt area 1)) else .empty

/-! ### Configuration image (chapter 12.5) -/

/-- The length of the image. -/
def imageLength : Nat := 105

/-- The values of one axis block. -/
def axisBlock (image : List Byte) (a : Axis) : AxisLimits :=
  let o := 12 * a.index
  { softMin := word3 image o
    softMax := word3 image (o + 3)
    speed := (word2 image (o + 6)).toNat
    accel := (word2 image (o + 8)).toNat
    error := (word2 image (o + 10)).toNat }

/-- The offset of a configurable class's settings byte; none for DRIVE_FAULT and DUPLICATE_STATION, which the image does
not configure (R162, chapter 12.5). -/
def classOffset : FaultClass → Option Nat
  | .followingError => some 95
  | .driveFault => none
  | .duplicateStation => none
  | .axisLimit => some 96
  | .floorOverlap => some 97
  | .peerLost => some 98
  | .tallyLost => some 99
  | .busContention => some 100
  | .storeCorrupt => some 101

/-- The severity code of a settings byte, bits 0–1. -/
def severityCode (b : Byte) : Nat := (b.extractLsb' 0 2).toNat

/-- The setting of a class: severity 0 REPORT and 1 STOP in bits 0–1, mask in bit 7; DRIVE_FAULT and DUPLICATE_STATION are
always STOP and unmasked (R162, chapter 12.5). -/
def classSetting (image : List Byte) (c : FaultClass) : ClassSetting :=
  match classOffset c with
  | none => ⟨.stop, false⟩
  | some o => ⟨if severityCode (byteAt image o) = 1 then .stop else .report, (byteAt image o).getLsbD 7⟩

/-- The claim wait choice of its byte; none above 4 (R188). -/
def claimWaitOf (b : Byte) : Option ClaimWait :=
  match b.toNat with
  | 0 => some .ms250
  | 1 => some .s1
  | 2 => some .s4
  | 3 => some .s16
  | 4 => some .never
  | _ => none

/-- The values of an image (chapter 12.5). -/
def imageValues (image : List Byte) : Configuration :=
  { axes := PerAxis.ofFn (axisBlock image)
    halfWidth := (word2 image 84).toNat
    liveRate := (word2 image 86).toNat
    step := (byteAt image 88).toNat
    faultStep := (byteAt image 89).toNat
    blanking := (byteAt image 90).toNat
    claimWait := (claimWaitOf (byteAt image 91)).getD .never
    groupWait := (word2 image 92).toNat
    startDelay := (byteAt image 94).toNat
    classes := PerClass.ofFn (classSetting image)
    autoOnline := (byteAt image 102).getLsbD 0 }

/-- The limits of one axis pass the check (R2, R177). -/
def axisLimitsValid (a : Axis) (l : AxisLimits) : Bool :=
  decide (l.softMin.toNat ≤ l.softMax.toNat) && ((a != .x && a != .y) || decide (l.softMax.toNat ≤ 7999)) &&
    decide (1 ≤ l.speed) && decide (1 ≤ l.accel) && decide (1 ≤ l.error)

/-- The ranges of R177 hold of the values (the two code fields are tested on the image's bytes). -/
def valuesInRange (c : Configuration) : Bool :=
  Axis.all.all (fun a => axisLimitsValid a (c.axes.get a)) &&
    decide (100 ≤ c.halfWidth ∧ c.halfWidth ≤ 600) && decide (16 ≤ c.liveRate ∧ c.liveRate ≤ 256) &&
    decide (1 ≤ c.step ∧ c.step ≤ 64) && decide (1 ≤ c.faultStep ∧ c.faultStep ≤ 128) &&
    decide (c.blanking ≤ 255) && decide (100 ≤ c.groupWait ∧ c.groupWait ≤ 5000 ∧ c.groupWait % 100 = 0) &&
    decide (5 ≤ c.startDelay ∧ c.startDelay ≤ 50)

/-- The codes of the image's code fields are ones the part knows (R177, R188). -/
def imageCodesValid (image : List Byte) : Bool :=
  (claimWaitOf (byteAt image 91)).isSome &&
    FaultClass.all.all fun c =>
      match classOffset c with
      | none => true
      | some o => decide (severityCode (byteAt image o) ≤ 1)

/-- The configuration check of R177: the configuration's values when the station number and the image are valid. -/
def checkConfiguration (number : Nat) (image : List Byte) : Option Configuration :=
  if isPedestal number && image.length == imageLength && checkHolds image 103 && imageCodesValid image &&
      valuesInRange (imageValues image) then
    some (imageValues image)
  else none

/-! ### Frames sent (chapter 12, R142, R185) -/

/-- The low byte of a number. -/
def byteOf (n : Nat) : Byte := BitVec.ofNat 8 n

/-- Two bytes of a number. -/
def wordOf (n : Nat) : BitVec 16 := BitVec.ofNat 16 n

/-- The reason code of a FAILED report; other outcomes carry 0 (chapter 12.2). -/
def reasonCode : Reason → Nat
  | .badShot => 1
  | .listFull => 2
  | .duplicateTag => 3
  | .unknownTag => 4
  | .badGroup => 5
  | .duplicateGroup => 6
  | .planRange => 7
  | .floorTimeout => 8
  | .groupTimeout => 9
  | .groupAbandoned => 10
  | .fault => 11
  | .notActive => 12

/-- The outcome code and reason code of a CUE_REPORT (chapter 12.2). -/
def cueOutcomeCodes : CueOutcome → Nat × Nat
  | .started => (0, 0)
  | .completed => (1, 0)
  | .deferred => (2, 0)
  | .cancelled => (3, 0)
  | .failed r => (4, reasonCode r)

/-- The outcome code of a STORE_REPORT (chapter 12.2). -/
def storeOutcomeCode : StoreOutcome → Nat
  | .written => 0
  | .unchanged => 1
  | .busy => 2
  | .notIdle => 3
  | .badNumber => 4
  | .badRecord => 5
  | .writeFailed => 6

/-- The name byte of a FAULT_REPORT (chapter 12.1). -/
def faultNameByte : FaultName → Byte
  | .nothing => 0xFF
  | .axis a => byteOf a.index
  | .peer n => byteOf n
  | .shot n => byteOf n

/-- The status code of a SHOT_DATA (chapter 12.2). -/
def shotDataCode : ShotDataStatus → Nat
  | .empty => 0
  | .valid => 1
  | .noSuchShot => 2

/-- The station state's code (chapter 12.3). -/
def stationCode : StationState → Nat
  | .offline => 0
  | .joining => 1
  | .active => 2
  | .faultStop => 3

/-- The motion state's code (chapter 12.3). -/
def motionCode : MotionState → Nat
  | .idle => 0
  | .running => 1
  | .held => 2
  | .stopping => 3

/-- The stage's code (chapter 12.3). -/
def stageCode : Stage → Nat
  | .queued => 0
  | .routing => 1
  | .claiming => 2
  | .claimed => 3
  | .groupWait => 4
  | .running => 5

/-- The kind's code in a claim rectangle (chapter 12.3). -/
def claimKindCode : ClaimKind → Nat
  | .parked => 0
  | .leg => 1
  | .nextLeg => 2

/-- The six bytes of a claim rectangle (chapter 12.3). -/
def claimBytes (c : Claim) : List Byte :=
  let attributes := claimKindCode c.kind
  match c.state with
  | .held => [byteOf c.rect.x0, byteOf c.rect.y0, byteOf c.rect.x1, byteOf c.rect.y1, byteOf attributes, 0]
  | .pending r =>
    [byteOf c.rect.x0, byteOf c.rect.y0, byteOf c.rect.x1, byteOf c.rect.y1, byteOf (attributes + 4),
      byteOf (r.retry + 16 * r.priority)]

/-- A set of classes as two bytes (chapter 12). -/
def classSetWord (f : FaultClass → Bool) : BitVec 16 :=
  wordOf ((FaultClass.all.map fun c => flagBit (f c) c.code).sum)

/-- The 39 bytes of a STATE payload, unread bytes 0 (chapter 12.3, R185). -/
def stateBytes (p : StateFrame) : List Byte :=
  [byteOf (stationCode p.station + 4 * motionCode p.motion + flagBit p.onAir 4 + flagBit p.hold 5 +
      flagBit p.reportsLost 6 + flagBit p.head.isSome 7)] ++
    (match p.head with
      | some (tag, stage) => [tag, byteOf (stageCode stage)]
      | none => [0, 0]) ++
    [byteOf p.listLength] ++ be3 p.floorX ++ be3 p.floorY ++
    be2 (classSetWord fun c => (p.faults.get c).sticky) ++ be2 (classSetWord fun c => (p.faults.get c).recur) ++
    [byteOf p.claims.length] ++ p.claims.flatMap claimBytes ++ List.replicate (24 - 6 * p.claims.length) 0

/-- Kind code and payload of a frame the part sends (chapter 12.1, 12.2). -/
def framePayload : OutFrame → Byte × List Byte
  | .ready r =>
    (0x31, [r.group, r.tag] ++ be2 (wordOf r.duration) ++ [byteOf r.delay, byteOf (flagBit r.withdrawn 0)])
  | .state p => (0x30, stateBytes p)
  | .report (.cue tag outcome) =>
    (0x32, [tag, byteOf (cueOutcomeCodes outcome).1, byteOf (cueOutcomeCodes outcome).2])
  | .report (.store shot outcome) => (0x33, [shot, byteOf (storeOutcomeCode outcome)])
  | .report (.fault c name) => (0x35, [byteOf c.code, faultNameByte name])
  | .shotData shot status body => (0x34, [byteOf shot, byteOf (shotDataCode status)] ++ body)

/-- The destination of a frame the part sends: STATE and READY go to 30, the rest to 0 (R142). -/
def frameDest : OutFrame → Nat
  | .ready _ => allPedestals
  | .state _ => allPedestals
  | .report _ => cueStation
  | .shotData _ _ _ => cueStation

/-- The bytes of a frame the part sends: header, payload, check word; the source is the station number (R142, chapter
12.1). -/
def frameBytes (number : Nat) (f : OutFrame) : List Byte :=
  let p := framePayload f
  withCheck ([byteOf (frameDest f), byteOf number, p.1, byteOf p.2.length] ++ p.2)

end Sys2Proof.Machine
end

