-- ==== Sys2Proof/Machine/Areas.lean ====
section
/-! DEFINITION. The shot store's nonvolatile areas and sets of numbers: reading and writing one area in canonical form
(R16, R17, R24, R25, R28). -/
namespace Sys2Proof.Machine

/-! ### Ascending sets of numbers (corrupt marks, overlap set) -/

/-- A number added to an ascending set. -/
def insertNumber (n : Nat) : List Nat → List Nat
  | [] => [n]
  | m :: ms => if n < m then n :: m :: ms else if n = m then m :: ms else m :: insertNumber n ms

/-- A number removed from a set. -/
def eraseNumber (n : Nat) (l : List Nat) : List Nat := l.filter fun m => m != n

/-! ### Areas -/

/-- What the area of an unlisted record number reads as: the stored form of an EMPTY record (log 5). -/
def emptyArea : List Byte := storedForm .empty

/-- The area of a record number. -/
def areaOf (areas : List (Nat × List Byte)) (n : Nat) : List Byte := (areas.lookup n).getD emptyArea

/-- An entry put into an ascending list of areas. -/
def insertArea (n : Nat) (area : List Byte) : List (Nat × List Byte) → List (Nat × List Byte)
  | [] => [(n, area)]
  | (m, b) :: rest =>
    if n < m then (n, area) :: (m, b) :: rest
    else if n = m then (n, area) :: rest
    else (m, b) :: insertArea n area rest

/-- An area written as a whole; an area that reads as an unlisted one is not listed. -/
def writeArea (n : Nat) (area : List Byte) (areas : List (Nat × List Byte)) : List (Nat × List Byte) :=
  if area = emptyArea then areas.filter fun e => e.1 != n else insertArea n area areas

/-- Numbers strictly rising. -/
def risingFrom : Option Nat → List Nat → Bool
  | _, [] => true
  | none, m :: ms => risingFrom (some m) ms
  | some k, m :: ms => decide (k < m) && risingFrom (some m) ms

/-- The canonical form of the areas: record numbers strictly rising, no entry equal to what an unlisted number reads as. -/
def Areas.wf (areas : List (Nat × List Byte)) : Bool :=
  risingFrom none (areas.map Prod.fst) && areas.all fun e => e.2 != emptyArea

/-- What is left of an area when a write into it is cut off: byte by byte old or new (R25, log 6). -/
def tornArea (free : Nat) (old new : List Byte) : List Byte :=
  (List.range 44).map fun i => if Config.tornByteIsNew free i then byteAt new i else byteAt old i

/-- An area that no start-up check passes: a status byte that is neither 0x00 nor 0x01 (R187). -/
def failingArea : List Byte := List.replicate 44 0xFF

/-- The area after a failed verify: marked EMPTY, and either passing or failing the next start-up check (R24, log 7). -/
def areaAfterFailedVerify (free : Nat) : List Byte :=
  if Config.failedAreaPasses free then emptyArea else failingArea

/-- The highest record number. -/
def lastShot : Nat := 127

/-- Whether the area of a record passes the start-up check (R29). An unlisted area is a sound EMPTY one
(`emptyArea_sound`). -/
def areaPasses (areas : List (Nat × List Byte)) (n : Nat) : Bool :=
  match areas.lookup n with
  | none => true
  | some area => areaSound area

/-- The records that fail the start-up check, in number order (R29). -/
def failingRecords (areas : List (Nat × List Byte)) : List Nat :=
  (List.range (lastShot + 1)).filter fun n => !areaPasses areas n

/-- The record as every reader reads it: EMPTY when its corrupt mark is set (R17). A record being written reads as before
the write, since its area changes at write completion only (R23). -/
def recordOf (store : ShotStore) (n : Nat) : Record :=
  if store.corrupt.contains n then .empty else areaRecord (areaOf store.areas n)

/-- A write of this record is in flight (R23). -/
def writing (store : ShotStore) (n : Nat) : Bool :=
  match store.write with
  | none => false
  | some w => w.shot == n

end Sys2Proof.Machine
end

