-- ==== Sys2Proof/Machine/Flags.lean ====
section
/-! DEFINITION. The fault classes' settings and flags (R161 to R164). -/
namespace Sys2Proof.Machine

/-- The default severity of a class, with its mask clear (R161, R173). -/
def defaultSetting : FaultClass → ClassSetting
  | .followingError => ⟨.stop, false⟩
  | .driveFault => ⟨.stop, false⟩
  | .duplicateStation => ⟨.stop, false⟩
  | .axisLimit => ⟨.report, false⟩
  | .floorOverlap => ⟨.report, false⟩
  | .peerLost => ⟨.report, false⟩
  | .tallyLost => ⟨.report, false⟩
  | .busContention => ⟨.report, false⟩
  | .storeCorrupt => ⟨.report, false⟩

/-- The values the part would use with no valid configuration. The spec gives only the severities and masks (R173); the
station then stays OFFLINE and reads none of the others (log 9). -/
def noConfiguration : Configuration :=
  { axes := everyAxis ⟨0, 0, 1, 1, 1⟩
    halfWidth := 100
    liveRate := 256
    step := 1
    faultStep := 1
    blanking := 0
    claimWait := .never
    groupWait := 100
    startDelay := 5
    classes := PerClass.ofFn defaultSetting
    autoOnline := false }

/-- The configuration in use (R177). -/
def configOf (s : State) : Configuration := s.control.config.getD noConfiguration

/-- Severity and mask of a class; DRIVE_FAULT and DUPLICATE_STATION are always STOP and unmasked (R162). -/
def settingOf (s : State) : FaultClass → ClassSetting
  | .driveFault => ⟨.stop, false⟩
  | .duplicateStation => ⟨.stop, false⟩
  | c => (configOf s).classes.get c

/-- A class of STOP severity (R162). -/
def isStop (s : State) (c : FaultClass) : Bool := (settingOf s c).severity == .stop

/-- The flags of a class after a raise: sticky first, recur at every later one (R164). -/
def flagsAfterRaise (f : FaultFlags) : FaultFlags := if f.sticky then ⟨true, true⟩ else ⟨true, false⟩

/-- Some sticky flag of a STOP-severity class is set (R168, R169, R171). -/
def stopFlagSet (s : State) : Bool := FaultClass.all.any fun c => isStop s c && (s.faults.get c).sticky

/-- The fault set with the named classes' flags cleared (R170). -/
def clearClasses (faults : PerClass FaultFlags) (classes : FaultClass → Bool) : PerClass FaultFlags :=
  PerClass.ofFn fun c => if classes c then ⟨false, false⟩ else faults.get c

end Sys2Proof.Machine
end

