-- ==== Sys2Proof/Machine/Planner.lean ====
section
/-! DEFINITION. The floor grid (R11 to R14, R73), target clamping (R15), and the arithmetic of plans and setpoints
(chapter 4): pure functions of positions, limits and shot contents. -/
namespace Sys2Proof.Machine

/-! ### The floor grid -/

/-- The cell of a floor coordinate; a coordinate above 7,999 lies in cell 31 (R11). -/
def cell (c : Nat) : Nat := min c 7999 / 250

/-- The footprint at a floor position with half-width `r` (R12); natural subtraction counts a negative difference as 0. -/
def footprint (r : Nat) (p : Point) : Rect :=
  { x0 := (min p.x 7999 - r) / 250
    x1 := min 31 ((min p.x 7999 + r) / 250)
    y0 := (min p.y 7999 - r) / 250
    y1 := min 31 ((min p.y 7999 + r) / 250) }

/-- Two rectangles share a cell (R13). -/
def Rect.intersects (a b : Rect) : Bool := decide (max a.x0 b.x0 ≤ min a.x1 b.x1 ∧ max a.y0 b.y0 ≤ min a.y1 b.y1)

/-- The cells two intersecting rectangles share (R13). -/
def Rect.inter (a b : Rect) : Rect := ⟨max a.x0 b.x0, min a.x1 b.x1, max a.y0 b.y0, min a.y1 b.y1⟩

/-- A rectangle is wholly contained in another (R13). -/
def Rect.within (a b : Rect) : Bool := decide (b.x0 ≤ a.x0 ∧ a.x1 ≤ b.x1 ∧ b.y0 ≤ a.y0 ∧ a.y1 ≤ b.y1)

/-- The bounding box of two rectangles (R13). -/
def Rect.bound (a b : Rect) : Rect := ⟨min a.x0 b.x0, max a.x1 b.x1, min a.y0 b.y0, max a.y1 b.y1⟩

/-- Two rectangles intersect in cells not wholly contained in an exempt footprint: the conflict test of R73 (exempt: the
start footprint) and the overlap test of R84 (exempt: by the own rectangle's kind; none for PARKED). -/
def meetsOutside (a b : Rect) (exempt : Option Rect) : Bool :=
  a.intersects b &&
    match exempt with
    | none => true
    | some f => !(a.inter b).within f

/-! ### Targets, distances, durations -/

/-- A position brought into the soft limits (R15). -/
def clampTo (l : AxisLimits) (v : Position) : Position :=
  if v.toNat < l.softMin.toNat then l.softMin else if l.softMax.toNat < v.toNat then l.softMax else v

/-- The position a target is clamped from: the shot's, or the start for an absent axis (R15). -/
def wantedPosition (shot : Option Position) (s0 : Position) : Position := shot.getD s0

/-- The wanted position lies outside the soft limits, so AXIS_LIMIT is raised (R15). -/
def outsideLimits (l : AxisLimits) (v : Position) : Bool := decide (v.toNat < l.softMin.toNat ∨ l.softMax.toNat < v.toNat)

/-- The distance D of an axis (R53). -/
def distanceOf (s0 target : Position) : Nat := (target.toNat - s0.toNat) + (s0.toNat - target.toNat)

/-- The direction of an axis (R53). -/
def directionOf (s0 target : Position) : Direction :=
  if s0.toNat < target.toNat then .up else if target.toNat < s0.toNat then .down else .stay

/-- The integer square root of `x` below `r + 2 ^ bits`, found from the highest bit down. -/
def sqrtFrom : Nat → Nat → Nat → Nat
  | 0, _, r => r
  | b + 1, x, r => if (r + 2 ^ b) * (r + 2 ^ b) ≤ x then sqrtFrom b x (r + 2 ^ b) else sqrtFrom b x r

/-- The greatest whole number whose square is at most `x`. -/
def floorSqrt (x : Nat) : Nat := sqrtFrom (Nat.log2 x / 2 + 1) x 0

/-- The smallest whole number whose square is at least `x`. -/
def ceilSqrt (x : Nat) : Nat := if floorSqrt x * floorSqrt x = x then floorSqrt x else floorSqrt x + 1

/-- The smallest whole number at least `a / b`. -/
def ceilDiv (a b : Nat) : Nat := (a + b - 1) / b

/-- Tv, the smallest N with 3·V·N ≥ 4·D (R54). -/
def speedDuration (d v : Nat) : Nat := ceilDiv (4 * d) (3 * v)

/-- Ta, the smallest N with 3·Aq·N² ≥ 4096·D (R54). -/
def accelDuration (d aq : Nat) : Nat := ceilSqrt (ceilDiv (4096 * d) (3 * aq))

/-- The minimum duration T of an axis (R54). -/
def minDuration (d : Nat) (l : AxisLimits) : Nat :=
  if d = 0 then 0 else max (speedDuration d l.speed) (accelDuration d l.accel)

/-! ### Legs, routes and splits -/

/-- A leg with its rectangle (R14, R58). -/
def legOf (r : Nat) (axis : Axis) (start stop : Point) (duration : Nat) : Leg :=
  ⟨axis, start, stop, (footprint r start).bound (footprint r stop), duration⟩

/-- T_floor: the sum of a route's leg durations (R58). -/
def floorDuration (legs : List Leg) : Nat := (legs.map Leg.duration).sum

/-- The leg split of a route for a move duration `n` (R60). -/
def splitRoute (n : Nat) (legs : List Leg) : Route :=
  match legs with
  | [] => ⟨[], 0, 0⟩
  | [l] => ⟨[l], n, 0⟩
  | l :: m :: rest =>
    let n1 := l.duration * n / floorDuration (l :: m :: rest)
    ⟨l :: m :: rest, n1, n - n1⟩

/-- The legs of the route candidates in the order in which they are tried (R56, R57). -/
def candidateLegs (r : Nat) (hint : RouteHint) (a b : Point) (tx ty : Nat) : List (List Leg) :=
  let xLeg := fun y => legOf r .x ⟨a.x, y⟩ ⟨b.x, y⟩ tx
  let yLeg := fun x => legOf r .y ⟨x, a.y⟩ ⟨x, b.y⟩ ty
  if a.x = b.x then
    if a.y = b.y then [[]] else [[yLeg a.x]]
  else if a.y = b.y then [[xLeg a.y]]
  else
    match hint with
    | .xFirst => [[xLeg a.y, yLeg b.x]]
    | .yFirst => [[yLeg a.x, xLeg b.y]]
    | .either => [[xLeg a.y, yLeg b.x], [yLeg a.x, xLeg b.y]]

/-- The head axes (introduction, "Axes"). -/
def headAxes : List Axis := [.elevation, .pan, .tilt, .zoom, .focus]

/-- The targets of a plan (R15). -/
def planTargets (cfg : Configuration) (starts : PerAxis Position) (c : ShotContent) : PerAxis Position :=
  PerAxis.ofFn fun a => clampTo (cfg.axes.get a) (wantedPosition (c.targets.get a) (starts.get a))

/-- The axes clamped in a plan, in axis order (R15). -/
def clampedAxes (cfg : Configuration) (starts : PerAxis Position) (c : ShotContent) : List Axis :=
  Axis.all.filter fun a => outsideLimits (cfg.axes.get a) (wantedPosition (c.targets.get a) (starts.get a))

/-- The move duration N from T_floor, the axis durations and the shot's move time (R59). -/
def moveDuration (tFloor : Nat) (axisDuration : PerAxis Nat) (moveTime : Option (BitVec 16)) : Nat :=
  max (max tFloor ((headAxes.map axisDuration.get).foldl max 0)) ((moveTime.map BitVec.toNat).getD 0)

/-- The floor position of a set of positions. -/
def floorPoint (p : PerAxis Position) : Point := ⟨p.x.toNat, p.y.toNat⟩

/-- The plan for a shot's content from given starts (R62, steps 1 to 6). -/
def buildPlan (cfg : Configuration) (starts : PerAxis Position) (c : ShotContent) : Plan :=
  let targets := planTargets cfg starts c
  let distance := PerAxis.ofFn fun a => distanceOf (starts.get a) (targets.get a)
  let durations := PerAxis.ofFn fun a => minDuration (distance.get a) (cfg.axes.get a)
  let n := moveDuration (durations.x + durations.y) durations c.moveTime
  { start := starts
    target := targets
    distance := distance
    direction := PerAxis.ofFn fun a => directionOf (starts.get a) (targets.get a)
    axisDuration := durations
    startFootprint := footprint cfg.halfWidth (floorPoint starts)
    duration := n
    candidates :=
      (candidateLegs cfg.halfWidth c.routeHint (floorPoint starts) (floorPoint targets) durations.x durations.y).map
        (splitRoute n)
    chosen := none
    common := none }

/-- The greatest move duration within range (R61). -/
def maxDuration : Nat := 65535

/-- The candidates with one of them given its split for another duration. -/
def resplitAt (n : Nat) : Nat → List Route → List Route
  | _, [] => []
  | 0, r :: rs => splitRoute n r.legs :: rs
  | k + 1, r :: rs => r :: resplitAt n k rs

/-- The plan re-split to a group's common N: the chosen route's split is recomputed, all else kept (R64). -/
def resplit (p : Plan) (n : Nat) : Plan :=
  { p with
    common := some n
    candidates := match p.chosen with
      | some k => resplitAt n k p.candidates
      | none => p.candidates }

/-- The chosen route of a plan (R63). -/
def chosenRoute (p : Plan) : Route := (p.chosen.bind fun k => p.candidates[k]?).getD ⟨[], 0, 0⟩

/-- The plan as it runs (R68). -/
def runningPlanOf (p : Plan) (live : Bool) : RunningPlan := ⟨p, chosenRoute p, p.common.getD p.duration, live⟩

/-! ### Setpoints -/

/-- M of a running plan, 1/256 ms (chapter 4.7). -/
def moveEnd (p : RunningPlan) : Nat := 256 * p.duration

/-- M1, the profile time at which leg 1 ends (R60). -/
def leg1End (p : RunningPlan) : Nat := 256 * p.route.n1

/-- A two-leg running plan. -/
def twoLegs (p : RunningPlan) : Bool := p.route.legs.length == 2

/-- The numerator of the profile at elapsed time `u` in a segment of duration `m` (R66). -/
def profileNum (m u : Nat) : Nat :=
  if 4 * u ≤ m then 16 * u * u
  else if 4 * u < 3 * m then 8 * u * m - m * m
  else 6 * m * m - 16 * (m - u) * (m - u)

/-- The offset from the start: D·num/den rounded half up, den = 6·M² (R66). -/
def profileOffset (d m u : Nat) : Nat := (2 * d * profileNum m u + 6 * m * m) / (2 * (6 * m * m))

/-- Segment duration and elapsed time of an axis at profile time `t`; none for a floor axis with no leg (R65). -/
def segmentOf (p : RunningPlan) (a : Axis) (t : Nat) : Option (Nat × Nat) :=
  if a = .x ∨ a = .y then
    match p.route.legs with
    | [] => none
    | l :: rest =>
      if l.axis = a then some (leg1End p, min t (leg1End p))
      else if rest.any fun m => decide (m.axis = a) then some (moveEnd p - leg1End p, t - leg1End p)
      else none
  else some (moveEnd p, t)

/-- The setpoint of an axis at profile time `t` (R65 to R67). -/
def setpointAt (p : RunningPlan) (t : Nat) (a : Axis) : Position :=
  let s0 := p.plan.start.get a
  let d := p.plan.distance.get a
  if d = 0 then s0
  else
    match segmentOf p a t with
    | none => s0
    | some (m, u) =>
      if m = 0 then p.plan.target.get a
      else
        match p.plan.direction.get a with
        | .up => BitVec.ofNat 24 (s0.toNat + profileOffset d m u)
        | .down => BitVec.ofNat 24 (s0.toNat - profileOffset d m u)
        | .stay => s0

/-- The seven setpoints at profile time `t` (R114, step 3). -/
def setpointsAt (p : RunningPlan) (t : Nat) : PerAxis Position := PerAxis.ofFn (setpointAt p t)

/-! ### Time-base rate and profile time (R116, R117) -/

/-- One step of the rate toward its target (R116). -/
def stepToward (step target r : Nat) : Nat :=
  if r ≤ target then (if target - r ≤ step then target else r + step)
  else if r - target ≤ step then target else r - step

/-- Profile time after one servo period: `t + r` with the saturations of R117; the leg-1 end first, which never meets the
move end in one period. -/
def advanceTime (p : RunningPlan) (stopping passed : Bool) (t r : Nat) : Nat :=
  if twoLegs p && !passed && decide (leg1End p < t + r) then leg1End p
  else if moveEnd p ≤ t + r then (if stopping then moveEnd p - 1 else moveEnd p)
  else t + r

end Sys2Proof.Machine
end

