-- ==== Sys2Proof/Machine/Ops.lean ====
section
/-! DEFINITION. The shared operations on the state: the STATE marker, the report and READY FIFOs, the rate target and
stops, the own claim set, the removal of an entry, raising a fault and entering FAULT_STOP, the overlap test. -/
namespace Sys2Proof.Machine

/-! ### Lists by place -/

/-- The entry at a place of the cue list changed (R31). -/
def modifyCue (k : Nat) (f : CueEntry → CueEntry) (s : State) : State := { s with cues := s.cues.modify k f }

/-- The place of the first entry that satisfies a test. -/
def cueIndex (p : CueEntry → Bool) (s : State) : Option Nat := s.cues.findIdx? p

/-! ### STATE marker and reports -/

/-- The station states in which frames are sent and the STATE marker can be set (R148, R151). -/
def onBus (s : State) : Bool := s.control.station == .active || s.control.station == .faultStop

/-- A setting of the STATE marker: no effect while OFFLINE or JOINING (R148). -/
def setMarker (s : State) : State := if onBus s then { s with bus := { s.bus with stateMarker := true } } else s

/-- The capacity of the report FIFO (R145). -/
def reportCapacity : Nat := 8

/-- A report placed in the report FIFO, or discarded with the reports-lost flag set when the FIFO is full (R146, R147). -/
def pushReport (r : Report) (s : State) : State :=
  if s.bus.reportFifo.length < reportCapacity then
    { s with bus := { s.bus with reportFifo := s.bus.reportFifo ++ [r] } }
  else
    { s with
      bus := { s.bus with
        reportsLost := true
        transmission := s.bus.transmission.map fun t => { t with reportDiscarded := true } } }

/-- A CUE_REPORT placed (R36). -/
def reportCue (tag : Byte) (o : CueOutcome) (s : State) : State := pushReport (.cue tag o) s

/-- A STORE_REPORT placed (R18). -/
def reportStore (shot : Byte) (o : StoreOutcome) (s : State) : State := pushReport (.store shot o) s

/-! ### Fault flags -/

/-- A raise's effect on the class's flags and its report: the first unmasked raise is reported, a change of a flag sets
the STATE marker (R163, R164, R165). -/
def raiseFlags (c : FaultClass) (name : FaultName) (s : State) : State :=
  let before := s.faults.get c
  let after := flagsAfterRaise before
  let t := if after = before then s else setMarker { s with faults := s.faults.set c after }
  if before.sticky || (settingOf s c).masked then t else pushReport (.fault c name) t

/-! ### Motion -/

/-- A move exists (R112). -/
def moveExists (s : State) : Bool := s.profile.motion != .idle

/-- The running plan's shot copy has live-permitted clear (R115). -/
def runsNotLive (s : State) : Bool :=
  match s.profile.plan with
  | some p => !p.livePermitted
  | none => false

/-- The rate target (R115). -/
def rateTarget (s : State) : Nat :=
  if s.profile.motion = .stopping ∨ s.profile.hold = true then 0
  else if s.tally.onAir && runsNotLive s then (configOf s).liveRate
  else 256

/-- The blanking windows restarted on every axis; with W of 0 they stay stopped (R128). -/
def restartBlanking (s : State) : State :=
  { s with
    port := { s.port with blanking := if (configOf s).blanking = 0 then none else some (configOf s).blanking } }

/-- After a change of an input of the rate target: a change of the target's value while a move exists restarts the
blanking windows (R115, R128). -/
def retarget (before after : State) : State :=
  if moveExists before && moveExists after && rateTarget before != rateTarget after then restartBlanking after else after

/-- The motion state changed; a change sets the STATE marker (R113). -/
def setMotion (m : MotionState) (s : State) : State :=
  if s.profile.motion = m then s else setMarker { s with profile := { s.profile with motion := m } }

/-- A stop begins (R123). -/
def beginStop (kind : StopKind) (s : State) : State :=
  retarget s (setMotion .stopping { s with profile := { s.profile with stopKind := some kind } })

/-- The move ends: IDLE, the running plan and stop kind dropped, the rate kept (R120, R125). -/
def endMove (s : State) : State :=
  let t := setMotion .idle s
  { t with profile := { t.profile with plan := none, time := 0, stopKind := none, leg1Passed := false } }

/-- What entry to FAULT_STOP does to the motion: a stop of kind FAULT begins, or a stop in progress turns to it, or, with
no move, drive enable is deasserted (R123, R124, R130, R166). -/
def faultMotion (s : State) : State :=
  match s.profile.motion with
  | .idle => { s with control := { s.control with driveEnable := false } }
  | .stopping => { s with profile := { s.profile with stopKind := some .fault } }
  | _ => beginStop .fault s

/-! ### READY FIFO (R102) -/

/-- The capacity of the READY FIFO (R102). -/
def readyCapacity : Nat := 4

/-- The head of the READY FIFO is in transmission. -/
def readyInTransmission (s : State) : Bool :=
  match s.bus.transmission with
  | some t =>
    match t.frame with
    | .ready _ => true
    | _ => false
  | none => false

/-- How many frames of the READY FIFO are in transmission: its head or none. -/
def readySent (s : State) : Nat := if readyInTransmission s then 1 else 0

/-- The first withdrawal of a list discarded. -/
def dropWithdrawal : List QueuedReady → List QueuedReady
  | [] => []
  | r :: rs => if r.withdrawn then rs else r :: dropWithdrawal rs

/-- A READY joins the end of the FIFO; a full FIFO first discards its oldest withdrawal that is not in transmission
(R102, third and fourth case; a full FIFO without one is not reachable, log 21). -/
def joinReady (r : QueuedReady) (s : State) : State :=
  let n := readySent s
  let fifo := s.bus.readyFifo
  let fifo := if fifo.length < readyCapacity then fifo else fifo.take n ++ dropWithdrawal (fifo.drop n)
  if fifo.length < readyCapacity then { s with bus := { s.bus with readyFifo := fifo ++ [r] } } else s

/-- A readiness of a group. -/
def isReadiness (group : Byte) (r : QueuedReady) : Bool := r.group == group && !r.withdrawn

/-- The first readiness of a group in a list replaced. -/
def replaceReadiness (group : Byte) (w : QueuedReady) : List QueuedReady → List QueuedReady
  | [] => []
  | r :: rs => if isReadiness group r then w :: rs else r :: replaceReadiness group w rs

/-- The readiness of a group that is in transmission is marked: no record takes it and it is not sent again (R102, R106). -/
def orphanSent (group : Byte) (s : State) : State :=
  let mark := fun r : QueuedReady => if isReadiness group r then { r with orphan := true } else r
  let n := readySent s
  { s with
    bus := { s.bus with readyFifo := (s.bus.readyFifo.take n).map mark ++ s.bus.readyFifo.drop n } }

/-- A withdrawal placed: in the place of the group's readiness while that is not in transmission, else at the end, the
readiness in transmission being left to finish (R102). -/
def placeWithdrawal (group tag : Byte) (s : State) : State :=
  let w : QueuedReady := ⟨group, tag, 0, 0, true, false⟩
  let n := readySent s
  let rest := s.bus.readyFifo.drop n
  if rest.any (isReadiness group) then
    { s with
      bus := { s.bus with readyFifo := s.bus.readyFifo.take n ++ replaceReadiness group w rest } }
  else joinReady w (orphanSent group s)

/-- The group's readiness removed unsent, or, in transmission, left to finish (R106). -/
def dropReadiness (group : Byte) (s : State) : State :=
  let t := orphanSent group s
  let n := readySent t
  { t with
    bus := { t.bus with
      readyFifo := t.bus.readyFifo.take n ++ (t.bus.readyFifo.drop n).filter fun r => !isReadiness group r } }

/-! ### Own claim set -/

/-- The own claim set changed; a change sets the STATE marker (R71). -/
def setOwn (own : List OwnClaim) (s : State) : State :=
  if own = s.claims.own then s else setMarker { s with claims := { s.claims with own := own } }

/-- A HELD rectangle of the own claim set. -/
def isHeld (o : OwnClaim) : Bool := o.claim.state == .held

/-- The HELD rectangles of the own claim set. -/
def heldClaims (s : State) : List OwnClaim := s.claims.own.filter isHeld

/-- The rectangles owned by the entry at a place: LEG by the head, NEXT_LEG by the second entry (R70). -/
def ownedAt (k : Nat) (o : OwnClaim) : Bool :=
  match k with
  | 0 => o.claim.kind == .leg
  | 1 => o.claim.kind == .nextLeg
  | _ => false

/-- The PARKED rectangle at the last setpoints of X and Y (R3, R12, R91). -/
def parkedClaim (s : State) : OwnClaim :=
  ⟨⟨footprint (configOf s).halfWidth (floorPoint s.port.lastSetpoint), .parked, .held⟩, 0⟩

/-- The claim wait and settle timers stopped (R77, R82). -/
def stopClaimTimers (s : State) : State :=
  { s with claims := { s.claims with settleTimer := false, claimWaitTimer := false } }

/-! ### Group records -/

/-- The record with a group id. -/
def groupRecord (group : Byte) (s : State) : Option GroupRecord := s.groups.records.find? fun r => r.group == group

/-- The state of the record an entry owns. -/
def entryGroupState (e : CueEntry) (s : State) : Option GroupState :=
  e.group.bind fun g => (groupRecord g s).map GroupRecord.state

/-- The record of an entry removed with it, and with an entry in GROUP_WAIT the coordinator's timers (R97, R105, R107). -/
def dropGroup (e : CueEntry) (s : State) : State :=
  match e.group with
  | none => s
  | some g =>
    let t := { s with groups := { s.groups with records := s.groups.records.filter fun r => r.group != g } }
    if e.stage = .groupWait then { t with groups := { t.groups with waitTimer := false, startDelay := none } } else t

/-! ### An entry leaves the list -/

/-- The entry at a place removed with the further effects of its stage: timers stopped, rectangles and group record
removed (R39, R49). -/
def dropAt (k : Nat) (s : State) : State :=
  match s.cues[k]? with
  | none => s
  | some e =>
    let t := { s with cues := s.cues.eraseIdx k }
    let t := if e.stage = .queued ∨ e.stage = .running then t else stopClaimTimers t
    setOwn (t.claims.own.filter fun o => !ownedAt k o) (dropGroup e t)

/-- The entry at a place reported with an outcome, its withdrawal queued when it leaves GROUP_WAIT with its record
COLLECTING and one is due (R108), and removed (R39, R49). -/
def removeAt (k : Nat) (o : CueOutcome) (withdraw : Bool) (s : State) : State :=
  match s.cues[k]? with
  | none => s
  | some e =>
    let t := reportCue e.tag o s
    let t := match e.group with
      | some g =>
        if withdraw && e.stage == .groupWait && entryGroupState e s == some .collecting then placeWithdrawal g e.tag t
        else t
      | none => t
    dropAt k t

/-- The first `n` entries from a place removed one after another (R41, R50). -/
def removeFrom (k : Nat) (o : CueOutcome) : Nat → State → State
  | 0, s => s
  | n + 1, s => removeFrom k o n (removeAt k o true s)

/-- The head's move is running. -/
def headRunning (s : State) : Bool :=
  match s.cues with
  | [] => false
  | e :: _ => e.stage == .running

/-- Every entry whose move is not running removed with an outcome, in list order from the head (R41, R50). -/
def removeIdle (o : CueOutcome) (s : State) : State :=
  if headRunning s then removeFrom 1 o (s.cues.length - 1) s else removeFrom 0 o s.cues.length s

/-- The head's ending set, unless it already carries one (R40, R50, R51). -/
def setHeadEnding (o : CueOutcome) (s : State) : State :=
  modifyCue 0 (fun e => { e with ending := some (e.ending.getD o) }) s

/-! ### Overlap test (R84, R85) -/

/-- The start footprint of the plan of the entry at a place. -/
def planFootprint (k : Nat) (s : State) : Option Rect := (s.cues[k]?.bind CueEntry.plan).map Plan.startFootprint

/-- The exempt footprint of an own rectangle (R84). -/
def exemptFor (o : OwnClaim) (s : State) : Option Rect :=
  match o.claim.kind with
  | .parked => none
  | .leg => planFootprint 0 s
  | .nextLeg => planFootprint 1 s

/-- A peer overlaps: a HELD rectangle of its entry meets a HELD own rectangle outside the exempt footprint (R84). -/
def peerOverlaps (p : PeerEntry) (s : State) : Bool :=
  p.claims.any fun c =>
    c.state == .held && (heldClaims s).any fun o => meetsOutside o.claim.rect c.rect (exemptFor o s)

/-- The peer entry with a number. -/
def peerOf (n : Nat) (s : State) : Option PeerEntry := s.peers.find? fun p => p.number == n

/-- The overlap set changed. -/
def setOverlap (l : List Nat) (s : State) : State := { s with claims := { s.claims with overlap := l } }

/-- The overlap test of one peer, with a given way of raising FLOOR_OVERLAP (R84). -/
def overlapTestBy (fault : FaultClass → FaultName → State → State) (n : Nat) (s : State) : State :=
  match peerOf n s with
  | none => s
  | some p =>
    if peerOverlaps p s then
      if s.claims.overlap.contains n then s
      else fault .floorOverlap (.peer n) (setOverlap (insertNumber n s.claims.overlap) s)
    else setOverlap (eraseNumber n s.claims.overlap) s

/-- The overlap test of every peer entry in ascending order (R85). -/
def overlapAllBy (fault : FaultClass → FaultName → State → State) (s : State) : State :=
  (s.peers.map PeerEntry.number).foldl (fun t n => overlapTestBy fault n t) s

/-- The overlap test that follows a change of the HELD rectangles (R85, log 14). -/
def overlapAfterBy (fault : FaultClass → FaultName → State → State) (before s : State) : State :=
  if heldClaims before = heldClaims s then s else overlapAllBy fault s

/-! ### Raising a fault, entering FAULT_STOP -/

/-- The cue list at entry to FAULT_STOP: a running head takes the ending FAILED FAULT if it has none, every other entry is
removed with FAILED FAULT (R50). -/
def failList (s : State) : State :=
  removeIdle (.failed .fault) (if headRunning s then setHeadEnding (.failed .fault) s else s)

/-- The station in FAULT_STOP, the FAULT pin asserted, the STATE marker set (R166). -/
def setFaultStop (s : State) : State :=
  setMarker { s with control := { s.control with station := .faultStop, faultPin := true } }

/-- Entry to FAULT_STOP: station control, cue list with group coordinator and claim manager, profile generator (R166). -/
def enterFaultStop (s : State) : State :=
  let t := failList (setFaultStop s)
  faultMotion (overlapAfterBy raiseFlags s t)

/-- A raise: flags and report, and, at STOP severity while ACTIVE, entry to FAULT_STOP (R164). -/
def raise (c : FaultClass) (name : FaultName) (s : State) : State :=
  let t := raiseFlags c name s
  if s.control.station = .active ∧ isStop s c = true then enterFaultStop t else t

/-- The overlap test of one peer (R84). -/
def overlapTest (n : Nat) (s : State) : State := overlapTestBy raise n s

/-- The overlap test of every peer (R85). -/
def overlapAll (s : State) : State := overlapAllBy raise s

/-- The overlap test after a change of the HELD rectangles (R85). -/
def overlapAfter (before s : State) : State := overlapAfterBy raise before s

/-- The own claim set changed, and the overlap test that follows when its HELD rectangles changed (R71, R85). -/
def changeClaims (own : List OwnClaim) (s : State) : State := overlapAfter s (setOwn own s)

/-! ### Frames heard (R142, R152, R155) -/

/-- The station's own number, 30, or neither (R142). For a station strapped 17 to 29 the table of R142, which takes a frame
sent to the station's own number, and its text, by which no 620 takes a frame sent to 17 to 29, disagree: the model follows
the table (DESIGN CHOICE, log 28). -/
def addressed (h : Header) (s : State) : Bool := destOf h == s.control.number || destOf h == allPedestals

/-- A frame heard from another station ends the spent condition (R152). -/
def endSpent (s : State) : State := { s with bus := { s.bus with spent := false } }

/-- The effect of an event while the part hears; before hearing begins nothing is received and no timer runs (R175,
log 3). -/
def whenHearing (f : State → State) (s : State) : State := if s.control.phase = .hearing then f s else s

/-- A frame of a cue-station kind: taken from source 0 when addressed to the station, else without effect (R142). -/
def fromCueStation (h : Header) (f : State → State) (s : State) : State :=
  if sourceOf h = cueStation ∧ addressed h s = true then f s else s

end Sys2Proof.Machine
end

