-- ==== Sys2Proof/Machine/Progress.lean ====
section
/-! DEFINITION. How entries go through their stages: planning reads, plan building, route tests, deferral, starts,
GROUP_WAIT, completion, stop completion, and the filling of the head and second places (chapters 3 to 7). -/
namespace Sys2Proof.Machine

/-! ### Route test (R73, R75, R76) -/

/-- Every rectangle of every peer entry, LIVE or LOST (R72). -/
def obstacles (s : State) : List Rect := s.peers.flatMap fun p => p.claims.map Claim.rect

/-- A leg conflicts with an obstacle (R73). -/
def legConflicts (start : Rect) (obstacle : Rect) (l : Leg) : Bool := meetsOutside l.rect obstacle (some start)

/-- A route is free of every obstacle (R73). -/
def routeFree (p : Plan) (obs : List Rect) (r : Route) : Bool :=
  r.legs.all fun l => obs.all fun o => !legConflicts p.startFootprint o l

/-- The kind of the rectangles of the entry at a place: LEG for the head, NEXT_LEG for the second entry (R75). -/
def kindAt (k : Nat) : ClaimKind := if k = 0 then .leg else .nextLeg

/-- The PENDING rectangles of a route's legs, numbered in leg order (R70, R75). -/
def pendingClaims (kind : ClaimKind) (rank : Rank) (legs : List Leg) : List OwnClaim :=
  legs.zipIdx.map fun (l, i) => ⟨⟨l.rect, kind, .pending rank⟩, i + 1⟩

/-- Pending legs have been added since the start of the transmission in progress (R78). -/
def noteLegsAdded (s : State) : State :=
  { s with
    bus := { s.bus with transmission := s.bus.transmission.map fun t => { t with legsAdded := true } } }

/-- The legs of a chosen route announced: added to the own claim set as PENDING with the entry's rank (R75). -/
def announceLegs (k : Nat) (e : CueEntry) (legs : List Leg) (s : State) : State :=
  noteLegsAdded (setOwn (s.claims.own ++ pendingClaims (kindAt k) ⟨e.priority, e.retry⟩ legs) s)

/-- The route test of the entry at a place, when it is ROUTING: the first free candidate is chosen; with legs the entry
becomes CLAIMING and announces them, without it is CLAIMED at once (R75, R76). -/
def routeTest (k : Nat) (s : State) : State :=
  match s.cues[k]? with
  | none => s
  | some e =>
    match e.stage, e.plan with
    | .routing, some p =>
      match p.candidates.findIdx? (routeFree p (obstacles s)) with
      | none => s
      | some i =>
        let legs := (p.candidates[i]?.map Route.legs).getD []
        let p' := { p with chosen := some i }
        if legs.isEmpty then modifyCue k (fun e => { e with stage := .claimed, plan := some p' }) s
        else announceLegs k e legs (modifyCue k (fun e => { e with stage := .claiming, plan := some p' }) s)
    | _, _ => s

/-- The retest of every entry in ROUTING, the head first (R76). -/
def retestRoutes (s : State) : State := routeTest 1 (routeTest 0 s)

/-! ### Planning reads and plan building (R28, R42, R46, R62) -/

/-- What a planning read and the building of its plan made of the entry. -/
inductive ReadResult where
  /-- the entry failed and has left the list -/
  | left
  /-- the entry waits for a write, or a fault stop ended the building -/
  | stays
  /-- the entry is past QUEUED -/
  | staged
deriving DecidableEq, Repr

/-- The starts S0 for the entry at a place: the last setpoints for the head, the head's targets for the second entry
(R15, R42, R46). -/
def planStarts (k : Nat) (s : State) : PerAxis Position :=
  if k = 0 then s.port.lastSetpoint
  else ((s.cues.head?.bind CueEntry.plan).map Plan.target).getD s.port.lastSetpoint

/-- AXIS_LIMIT raised for each clamped axis in turn; false when a raise put the station into FAULT_STOP, which ends the
building (R15, R167). -/
def raiseLimits : List Axis → State → State × Bool
  | [], s => (s, true)
  | a :: as, s =>
    let t := raise .axisLimit (.axis a) s
    if t.control.station = s.control.station then raiseLimits as t else (t, false)

/-- The claim wait timer starts for a plan with legs, unless the choice is "none" (R77). -/
def startClaimWait (p : Plan) (s : State) : State :=
  if p.candidates.any (fun r => !r.legs.isEmpty) && (configOf s).claimWait != .never then
    { s with claims := { s.claims with claimWaitTimer := true } }
  else s

/-- The entry at a place takes its shot copy and plan and enters ROUTING; its route is tested at once (R62, R75). -/
def enterRouting (k : Nat) (c : ShotContent) (p : Plan) (s : State) : State :=
  routeTest k
    (startClaimWait p (modifyCue k (fun e => { e with copy := some c, plan := some p, stage := .routing }) s))

/-- The planning read of the entry at a place and the building of its plan (R28, R42, R46, R61, R62). -/
def planAt (k : Nat) (s : State) : State × ReadResult :=
  match s.cues[k]? with
  | none => (s, .stays)
  | some e =>
    if writing s.store e.shot then (s, .stays)
    else
      match (if e.shot ≤ lastShot then recordOf s.store e.shot else .empty) with
      | .empty => (removeAt k (.failed .badShot) false s, .left)
      | .valid c =>
        let starts := planStarts k s
        let cfg := configOf s
        match raiseLimits (clampedAxes cfg starts c) s with
        | (t, false) => (t, .stays)
        | (t, true) =>
          let p := buildPlan cfg starts c
          if maxDuration < p.duration then (removeAt k (.failed .planRange) false t, .left)
          else (enterRouting k c p t, .staged)

/-! ### The second entry (R46) -/

/-- The second entry may be pre-planned (R46). -/
def prePlanAllowed (s : State) : Bool :=
  match s.cues with
  | e :: f :: _ =>
    e.stage == .running && f.stage == .queued && s.profile.motion != .stopping && s.control.station == .active
  | _ => false

/-- The second entry's planning read, made again for the next one while the read fails its entry (R46). Each failure
removes an entry, so the list's length bounds the run. -/
def fillSecond : Nat → State → State
  | 0, s => s
  | n + 1, s =>
    if prePlanAllowed s then
      match planAt 1 s with
      | (t, .left) => fillSecond n t
      | (t, _) => t
    else s

/-! ### Completion (R47, R88, R120) -/

/-- The own claim set at completion: the LEG rectangles removed, PARKED laid at the final floor setpoint, the NEXT_LEG
rectangles relabelled LEG (R88). -/
def completionClaims (s : State) : List OwnClaim :=
  parkedClaim s ::
    ((s.claims.own.filter fun o => o.claim.kind == .nextLeg).map fun o =>
      { o with claim := { o.claim with kind := .leg } })

/-- The head entry leaves at the end of its move with a report, and its group record with it (R47, R48). -/
def endHead (o : CueOutcome) (s : State) : State :=
  match s.cues with
  | [] => s
  | e :: rest => dropGroup e { (reportCue e.tag o s) with cues := rest }

/-- Completion: motion IDLE, the head reported COMPLETED and removed, the claims changed. The promotion follows
(`advance`; log 13). -/
def completeMove (s : State) : State :=
  let t := endHead .completed (endMove s)
  overlapAfter s (setOwn (completionClaims t) t)

/-! ### Start (R43, R86, R118) -/

/-- The profile generator begins the head's plan (R118). -/
def beginMove (s : State) : State :=
  match s.cues with
  | [] => s
  | e :: _ =>
    match e.plan with
    | none => s
    | some p =>
      let live := (e.copy.map ShotContent.livePermitted).getD false
      let run := runningPlanOf p live
      let t := { s with
        profile := { s.profile with plan := some run, time := 0, stopKind := none, leg1Passed := false } }
      let t := setMotion (if s.profile.hold then .held else .running) t
      restartBlanking { t with profile := { t.profile with rate := rateTarget t } }

/-- PARKED released at a move start whose route has legs (R86). -/
def releaseParked (s : State) : State :=
  match s.profile.plan with
  | some p =>
    if p.route.legs.isEmpty then s
    else changeClaims (s.claims.own.filter fun o => o.claim.kind != .parked) s
  | none => s

/-- The running plan has N of 0 (R67). -/
def zeroLength (s : State) : Bool :=
  match s.profile.plan with
  | some p => p.duration == 0
  | none => false

/-- The head entry starts: RUNNING, STARTED, the profile generator begins, PARKED is released; a move with N of 0
completes at once (second component true), else the second entry is pre-planned (R43, R46, R67, log 13). -/
def startHead (s : State) : State × Bool :=
  match s.cues with
  | [] => (s, false)
  | e :: _ =>
    let t := reportCue e.tag .started (modifyCue 0 (fun e => { e with stage := .running }) s)
    let t := releaseParked (beginMove t)
    if zeroLength t then (completeMove t, true) else (fillSecond t.cues.length t, false)

/-! ### Deferral and the start test (R43, R44, R45) -/

/-- The start of the head entry is deferred (R45). -/
def deferred (e : CueEntry) (s : State) : Bool :=
  (e.stage == .routing || e.stage == .claiming || e.stage == .claimed) && e.take &&
    !((e.copy.map ShotContent.livePermitted).getD false) && s.tally.onAir

/-- DEFERRED reported at the first event at which deferral applies (R45). -/
def reportDeferred (e : CueEntry) (s : State) : State :=
  if e.deferralReported then s
  else reportCue e.tag .deferred (modifyCue 0 (fun e => { e with deferralReported := true }) s)

/-- The own N of an entry's plan (R59, R101). -/
def ownDuration (e : CueEntry) : Nat := (e.plan.map Plan.duration).getD 0

/-- The GROUP head entry enters GROUP_WAIT: its readiness is queued and the group wait timer starts (R44, R101). -/
def enterGroupWait (e : CueEntry) (s : State) : State :=
  let t := modifyCue 0 (fun e => { e with stage := .groupWait }) s
  let t := joinReady ⟨e.group.getD 0, e.tag, ownDuration e, (configOf s).startDelay, false, false⟩ t
  { t with groups := { t.groups with waitTimer := true } }

/-- The test of the head's deferral, start or entry to GROUP_WAIT (R43, R44, R45). True when the head started and
completed at once. A stop completion that a RESTART waits for starts no move (log 15). -/
def testHead (s : State) : State × Bool :=
  match s.cues with
  | [] => (s, false)
  | e :: _ =>
    if deferred e s then (reportDeferred e s, false)
    else if e.stage = .claimed ∧ e.take = true then
      if e.mode = .group then (enterGroupWait e s, false)
      else if s.control.station = .active ∧ s.profile.motion = .idle ∧ s.control.restartPending = false then startHead s
      else (s, false)
    else (s, false)

/-! ### The head place is filled (R42, R47, R48) -/

/-- The head is taken up: a QUEUED head has its planning read made while the station is ACTIVE, and a head past QUEUED is
tested for deferral and start. An entry that fails or completes at once leaves its place to the next, so the list's
length bounds the run (R42, R47, R48). -/
def advance : Nat → State → State
  | 0, s => s
  | n + 1, s =>
    match s.cues with
    | [] => s
    | e :: _ =>
      if e.stage = .queued then
        if s.control.station = .active then
          match planAt 0 s with
          | (t, .left) => advance n t
          | (t, .stays) => t
          | (t, .staged) =>
            match testHead t with
            | (u, true) => advance n u
            | (u, false) => u
        else s
      else
        match testHead s with
        | (u, true) => advance n u
        | (u, false) => u

/-- The head is taken up, with the list's length as the bound. -/
def takeUpHead (s : State) : State := advance s.cues.length s

/-- The head's start conditions are tested again, without a planning read (R37, R43, R134). -/
def retestHead (s : State) : State :=
  match testHead s with
  | (t, true) => takeUpHead t
  | (t, false) => t

/-- The second place is filled, with the list's length as the bound. -/
def takeUpSecond (s : State) : State := fillSecond s.cues.length s

/-- The place an entry left is filled: the head's by taking up the new head, the second entry's by its pre-plan (R39). -/
def refill (k : Nat) (s : State) : State :=
  match k with
  | 0 => takeUpHead s
  | 1 => takeUpSecond s
  | _ => s

/-- The entry at a place leaves the list with an outcome: reported, removed, the overlap test made, its place filled (R39,
R49, R85). -/
def leaveAt (k : Nat) (o : CueOutcome) (withdraw : Bool) (s : State) : State :=
  refill k (overlapAfter s (removeAt k o withdraw s))

/-! ### Stop completion (R48, R89, R125, R169, R182) -/

/-- The pre-plan of the new head, once the second entry, discarded: copy, plan, retry count and stage (R48). -/
def discardPrePlan (s : State) : State :=
  match s.cues with
  | [] => s
  | e :: _ =>
    if e.stage = .queued then s
    else
      stopClaimTimers
        (modifyCue 0 (fun e => { e with copy := none, plan := none, retry := 0, stage := .queued }) s)

/-- The ending of the head entry; CANCELLED for an entry without one, which is not reachable (log 21). -/
def headEnding (s : State) : CueOutcome := (s.cues.head?.bind CueEntry.ending).getD .cancelled

/-- The stopped move's entry leaves, the pre-plan is discarded, PARKED is laid at the stop position (R48, R89, R125). -/
def endStoppedMove (s : State) : State :=
  let t := discardPrePlan (endHead (headEnding s) (endMove s))
  overlapAfter s (setOwn [parkedClaim t] t)

/-- Return to ACTIVE from FAULT_STOP, drive enable asserted (R130, R171). -/
def returnToActive (s : State) : State :=
  setMarker { s with
    control := { s.control with station := .active, faultPin := false, driveEnable := true } }

/-- The fault unit's test at the fault stop's completion (R169). -/
def faultStopCompletion (s : State) : State :=
  if stopFlagSet s then { s with control := { s.control with driveEnable := false } } else returnToActive s

/-- No motion: the profile generator's state with no move, the hold flag clear (R131). -/
def profileAfterRestart (p : Profile) : Profile :=
  { motion := .idle, plan := none, time := 0, rate := p.rate, hold := false, stopKind := none, leg1Passed := false }

/-- RESTART takes effect: what R183 clears is cleared, a transmission is broken off (R154), and the station enters
JOINING (R183). -/
def restartEffect (s : State) : State :=
  { s with
    control := { s.control with
      station := .joining, joinTimer := true, restartPending := false, driveEnable := true, faultPin := false }
    bus := { readyFifo := [], stateMarker := false, reportFifo := [], cursor := ⟨0, 0⟩, reportsLost := false,
             heartbeat := false, spent := false, abandonCount := 0, transmission := none, driverEnable := false }
    peers := []
    cues := []
    claims := { own := [], overlap := [], settleTimer := false, claimWaitTimer := false }
    groups := { records := [], waitTimer := false, startDelay := none }
    profile := profileAfterRestart s.profile
    faults := noFaults }

/-- Stop completion: the stopped move's end, the promotion, the test of R169 for a station in FAULT_STOP, and the effect
of a RESTART that waits (R48, R125, R169, R182). -/
def stopCompletion (s : State) : State :=
  let t := takeUpHead (endStoppedMove s)
  let t := if s.control.station = .faultStop then faultStopCompletion t else t
  if s.control.restartPending then restartEffect t else t

end Sys2Proof.Machine
end

