-- ==== Sys2Proof/Machine/Frames.lean ====
section
/-! DEFINITION. What every heard frame does (R142, R143, R152, R155), and FRAME_DISCARDED, DUPLICATE_STATION_EVENT and
FRAME_HEARD_NOT_TAKEN. -/
namespace Sys2Proof.Machine

/-- Entry to OFFLINE from JOINING: the join and servo timers stop, the open exchange is closed, drive enable and the
ONLINE pin are deasserted, the STATE marker and the spent condition cleared (R5, R130, R160, R181). -/
def returnToOffline (s : State) : State :=
  { s with
    control := { s.control with station := .offline, joinTimer := false, driveEnable := false, onlinePin := false }
    port := { s.port with servoTimer := false, exchange := none }
    bus := { s.bus with stateMarker := false, spent := false, heartbeat := false } }

/-- Station control's response to a duplicate-station event while OFFLINE or JOINING (R181). -/
def setIdentityConflict (s : State) : State :=
  let t := { s with control := { s.control with identityConflict := true, idConflictPin := true } }
  if s.control.station = .joining then returnToOffline t else t

/-- A duplicate-station event: the spent condition ends; DUPLICATE_STATION is raised in ACTIVE and FAULT_STOP, and in
OFFLINE and JOINING station control is told (R152, R155). -/
def duplicateStation (s : State) : State :=
  let t := endSpent s
  match s.control.station with
  | .active => raise .duplicateStation .nothing t
  | .faultStop => raise .duplicateStation .nothing t
  | .offline => setIdentityConflict t
  | .joining => setIdentityConflict t

/-- A frame heard: one with the station's own number as source is a duplicate-station event and reaches no block; any other
ends the spent condition and is handed to its block (R144, R152, R155). -/
def heard (h : Header) (f : State → State) (s : State) : State :=
  whenHearing (fun s => if sourceOf h = s.control.number then duplicateStation s else f (endSpent s)) s

/-- A frame of a cue-station kind heard (R142). -/
def heardFromCue (h : Header) (f : State → State) (s : State) : State := heard h (fromCueStation h f) s

/-- FRAME_DISCARDED: a frame that is not heard, or a fragment, has no effect (R143, R152). -/
def execFrameDiscarded (s : State) : Host.Outcome State Fault Refusal := .next s

/-- DUPLICATE_STATION_EVENT (R155). -/
def execDuplicateStationEvent (s : State) : Host.Outcome State Fault Refusal := .next (whenHearing duplicateStation s)

/-- FRAME_HEARD_NOT_TAKEN: no block takes the frame; only the spent condition ends (R142, R152). -/
def execFrameHeardNotTaken (h : Header) (s : State) : Host.Outcome State Fault Refusal := .next (heard h id s)

end Sys2Proof.Machine
end

