-- ==== Sys2Proof/Machine/ClaimTimers.lean ====
section
/-! DEFINITION. The claim manager's timers: SETTLE_EXPIRY (R81) and CLAIM_WAIT_EXPIRY (R77). -/
namespace Sys2Proof.Machine

/-- The PENDING rectangles of the entry at a place become HELD and lose their rank (R81). -/
def holdClaims (k : Nat) (own : List OwnClaim) : List OwnClaim :=
  own.map fun o => if ownedAt k o then { o with claim := { o.claim with state := .held } } else o

/-- The entry at a place settles: its rectangles HELD, CLAIMED, the claim timers stopped; the head's start is tested, and
then every peer for overlap (R81). -/
def settleAt (k : Nat) (s : State) : State :=
  let t := stopClaimTimers (setOwn (holdClaims k s.claims.own) s)
  let t := modifyCue k (fun e => { e with stage := .claimed }) t
  overlapAll (if k = 0 then retestHead t else t)

/-- The settle timer expires (R81). -/
def expireSettle (s : State) : State :=
  match cueIndex (fun e => e.stage == .claiming) s with
  | none => { s with claims := { s.claims with settleTimer := false } }
  | some k => settleAt k s

/-- SETTLE_EXPIRY (R81). -/
def execSettleExpiry (s : State) : Host.Outcome State Fault Refusal :=
  .next (whenHearing (fun s => if s.claims.settleTimer then expireSettle s else s) s)

/-- The entry that uses the claim wait timer: the one in ROUTING or CLAIMING (R46, R77). -/
def waitingIndex (s : State) : Option Nat := cueIndex (fun e => e.stage == .routing || e.stage == .claiming) s

/-- The claim wait timer expires: the entry fails FLOOR_TIMEOUT and the STATE marker is set, whether or not the entry had
PENDING rectangles (R49, R77). -/
def expireClaimWait (s : State) : State :=
  match waitingIndex s with
  | none => { s with claims := { s.claims with claimWaitTimer := false } }
  | some k => setMarker (leaveAt k (.failed .floorTimeout) false s)

/-- CLAIM_WAIT_EXPIRY (R77). -/
def execClaimWaitExpiry (s : State) : Host.Outcome State Fault Refusal :=
  .next (whenHearing (fun s => if s.claims.claimWaitTimer then expireClaimWait s else s) s)

end Sys2Proof.Machine
end

