-- ==== Sys2Proof/Machine/CueRequests.lean ====
section
/-! DEFINITION. The requests to the cue list and to the profile generator: CUE, TAKE, GROUP_TAKE, CANCEL, HOLD, RESUME
(R34 to R41, R121). -/
namespace Sys2Proof.Machine

/-! ### CUE (R34, R35) -/

/-- The capacity of the cue list (R32). -/
def cueCapacity : Nat := 8

/-- The capacity of the group coordinator (R97). -/
def groupCapacity : Nat := 4

/-- The first failing test of a CUE (R35). -/
def cueRefusal (p : CuePayload) (mode : StartMode) (s : State) : Option Reason :=
  if s.cues.any (fun e => e.tag == p.tag) then some .duplicateTag
  else if cueCapacity ≤ s.cues.length then some .listFull
  else if lastShot < p.shot.toNat then some .badShot
  else if mode = .group then
    if !inPedestalSet p.members s.control.number || p.group == 0 then some .badGroup
    else if (groupRecord p.group s).isSome then some .duplicateGroup
    else if groupCapacity ≤ s.groups.records.length then some .listFull
    else none
  else none

/-- The entry an accepted CUE creates (R31). -/
def newEntry (p : CuePayload) (mode : StartMode) : CueEntry :=
  { tag := p.tag
    shot := p.shot.toNat
    priority := cuePriority p.mode
    mode := mode
    group := if mode = .group then some p.group else none
    take := mode == .immediate
    stage := .queued
    retry := 0
    copy := none
    plan := none
    deferralReported := false
    ending := none }

/-- The record an accepted GROUP CUE creates (R97). -/
def newRecord (p : CuePayload) : GroupRecord :=
  ⟨p.group, (pedestalsOf p.members).map fun n => ⟨n, none⟩, .collecting, none, none⟩

/-- An accepted CUE's entry joins the end of the list, and a GROUP entry's record is created (R31, R32, R97). -/
def addEntry (p : CuePayload) (mode : StartMode) (s : State) : State :=
  let t := { s with cues := s.cues ++ [newEntry p mode] }
  if mode = .group then { t with groups := { t.groups with records := t.groups.records ++ [newRecord p] } } else t

/-- A CUE taken while ACTIVE: refused, or accepted, a new head being planned and a new second entry pre-planned at once
(R35, R42, R46). -/
def acceptCue (p : CuePayload) (mode : StartMode) (s : State) : State :=
  match cueRefusal p mode s with
  | some r => reportCue p.tag (.failed r) s
  | none => refill s.cues.length (addEntry p mode s)

/-- A CUE taken; start mode code 3 is discarded (R34, R185). -/
def takeCue (p : CuePayload) (s : State) : State :=
  match cueStartMode p.mode with
  | none => s
  | some mode =>
    match s.control.station with
    | .active => acceptCue p mode s
    | .faultStop => reportCue p.tag (.failed .notActive) s
    | .offline => s
    | .joining => s

/-- CUE (R34, R35). -/
def execCue (h : Header) (p : CuePayload) (s : State) : Host.Outcome State Fault Refusal :=
  .next (heardFromCue h (takeCue p) s)

/-! ### TAKE and GROUP_TAKE (R37, R38) -/

/-- The take flag of the entry at a place set, and for the head its start tested (R37). -/
def setTake (k : Nat) (s : State) : State :=
  let t := modifyCue k (fun e => { e with take := true }) s
  if k = 0 then retestHead t else t

/-- A TAKE taken (R37). -/
def takeTake (tag : Byte) (s : State) : State :=
  if onBus s then
    match cueIndex (fun e => e.tag == tag) s with
    | some k => setTake k s
    | none => reportCue tag (.failed .unknownTag) s
  else s

/-- TAKE (R37). -/
def execTake (h : Header) (tag : Byte) (s : State) : Host.Outcome State Fault Refusal :=
  .next (heardFromCue h (takeTake tag) s)

/-- A GROUP_TAKE taken (R38). -/
def takeGroupTake (group : Byte) (s : State) : State :=
  if onBus s then
    match cueIndex (fun e => e.group == some group) s with
    | some k => setTake k s
    | none => s
  else s

/-- GROUP_TAKE (R38). -/
def execGroupTake (h : Header) (group : Byte) (s : State) : Host.Outcome State Fault Refusal :=
  .next (heardFromCue h (takeGroupTake group) s)

/-! ### CANCEL (R39, R40, R41) -/

/-- A CANCEL of the running head: its ending is CANCELLED and a stop begins, unless a stop is in progress (R40). -/
def cancelRunning (s : State) : State :=
  if s.profile.motion = .stopping then s
  else beginStop .cancel (modifyCue 0 (fun e => { e with ending := some .cancelled }) s)

/-- A CANCEL of the entry at a place (R39, R40). -/
def cancelAt (k : Nat) (s : State) : State :=
  if k = 0 ∧ headRunning s = true then cancelRunning s else leaveAt k .cancelled true s

/-- A CANCEL naming a tag taken (R39, R40, R41). -/
def takeCancel (tag : Byte) (s : State) : State :=
  if onBus s then
    match cueIndex (fun e => e.tag == tag) s with
    | some k => cancelAt k s
    | none => reportCue tag (.failed .unknownTag) s
  else s

/-- CANCEL (R39). -/
def execCancel (h : Header) (tag : Byte) (s : State) : Host.Outcome State Fault Refusal :=
  .next (heardFromCue h (takeCancel tag) s)

/-- A CANCEL naming "all" taken: a running head begins its stop, every other entry is removed in list order (R41). An entry
that becomes head on the way makes no planning read, since the same CANCEL goes on to remove it: R41 says so of pre-plans only,
while R39 and R42 have a promoted head read at its promotion (DESIGN CHOICE, log 31). -/
def takeCancelAll (s : State) : State :=
  if onBus s then
    let t := if headRunning s then cancelRunning s else s
    overlapAfter t (removeIdle .cancelled t)
  else s

/-- CANCEL_ALL (R41). -/
def execCancelAll (h : Header) (s : State) : Host.Outcome State Fault Refusal := .next (heardFromCue h takeCancelAll s)

/-! ### HOLD and RESUME (R121) -/

/-- The hold flag changed: the STATE marker is set and the rate target evaluated again (R121, R148). -/
def changeHold (b : Bool) (s : State) : State :=
  if s.profile.hold = b then s
  else retarget s (setMarker { s with profile := { s.profile with hold := b } })

/-- A HOLD taken (R121). -/
def takeHold (s : State) : State := if onBus s then changeHold true s else s

/-- HOLD (R121). -/
def execHold (h : Header) (s : State) : Host.Outcome State Fault Refusal := .next (heardFromCue h takeHold s)

/-- A RESUME taken: a HELD move is RUNNING again; with the flag already clear nothing changes (R121). -/
def takeResume (s : State) : State :=
  if onBus s = true ∧ s.profile.hold = true then
    let t := changeHold false s
    if t.profile.motion = .held then setMotion .running t else t
  else s

/-- RESUME (R121). -/
def execResume (h : Header) (s : State) : Host.Outcome State Fault Refusal := .next (heardFromCue h takeResume s)

end Sys2Proof.Machine
end

