-- ==== Sys2Proof/Machine/StartUp.lean ====
section
/-! DEFINITION. Supply and reset, the start sequence, going online, joining and restart (chapter 11, R9, R29). -/
namespace Sys2Proof.Machine

/-! ### Supply and reset -/

/-- A write in flight ends unfinished: its area is left with old content, new content or a mixture (R25). -/
def cutWrite (s : State) : State :=
  match s.store.write with
  | none => s
  | some w =>
    { s with
      store := { s.store with
        areas := writeArea w.shot (tornArea s.free (areaOf s.store.areas w.shot) (storedForm w.content)) s.store.areas
        write := none }
      free := s.free + 1 }

/-- An asserted reset pin or a power failure: everything in progress ends at once, without completion and without report;
no output is driven and nothing is received until the start sequence (R175, R184). -/
def haltPart (phase : Phase) (s : State) : State :=
  let t := cutWrite s
  { t with
    control := { t.control with
      phase := phase, joinTimer := false, restartPending := false, driveEnable := false, onlinePin := false,
      faultPin := false, configBadPin := false, idConflictPin := false }
    port := { t.port with exchange := none, closed := none, servoTimer := false, blanking := none, requests := [] }
    bus := { t.bus with transmission := none, driverEnable := false, heartbeat := false, spent := false }
    tally := { t.tally with timer := false }
    claims := { t.claims with settleTimer := false, claimWaitTimer := false }
    groups := { t.groups with waitTimer := false, startDelay := none }
    profile := { t.profile with motion := .idle, plan := none, time := 0, stopKind := none, leg1Passed := false } }

/-- Step 1 of the start sequence: all volatile state cleared; the shot store's areas are kept (R175, R30). -/
def startSequence (s : State) : State :=
  let t := cutWrite s
  { State.reset with
    store := { State.reset.store with areas := t.store.areas }
    free := t.free
    pending := s.pending }

/-- The level of the reset pin changed (R175). -/
def setResetPin (asserted : Bool) (s : State) : State := { s with control := { s.control with resetPin := asserted } }

/-- POWER_ON: the supply has become valid. The start sequence begins, unless the reset pin is held asserted: then the part
is held in reset until its release (R175, R184). -/
def execPowerOn (s : State) : Host.Outcome State Fault Refusal :=
  .next (if s.control.resetPin then haltPart .heldInReset s else startSequence s)

/-- PIN_RESET: the reset pin is released, and the start sequence begins as at power-on. Without a valid supply only the pin's
level changes: the start sequence then begins at POWER_ON (R175). -/
def execPinReset (s : State) : Host.Outcome State Fault Refusal :=
  .next (if s.control.phase = .unpowered then setResetPin false s else startSequence s)

/-- RESET_ASSERTED: the reset pin is held asserted from now on, with a valid supply or without (R175, R184). -/
def execResetAsserted (s : State) : Host.Outcome State Fault Refusal :=
  .next
    (if s.control.phase = .unpowered then setResetPin true s else haltPart .heldInReset (setResetPin true s))

/-- POWER_LOSS: the reset pin keeps its level (R175). -/
def execPowerLoss (s : State) : Host.Outcome State Fault Refusal := .next (haltPart .unpowered s)

/-! ### Steps 2 to 4 of the start sequence -/

/-- After this many abandoned transfers the image is unreadable (R176). -/
def transferLimit : Nat := 3

/-- CONFIG_TRANSFER_ABANDON: the transfer is abandoned and started again (R176). -/
def execConfigTransferAbandon (s : State) : Host.Outcome State Fault Refusal :=
  .next
    (if s.control.phase = .readingConfiguration then
      { s with
        control := { s.control with transferAbandons := min transferLimit (s.control.transferAbandons + 1) } }
    else s)

/-- The image as read: after three abandoned transfers it is unreadable (R176). -/
def imageRead (s : State) (image : List Byte) : List Byte :=
  if transferLimit ≤ s.control.transferAbandons then [] else image

/-- CONFIGURATION_CHECK: the straps and the image have been read; the values are held when they are valid, else CONFIG_BAD
is asserted (R176, R177). -/
def execConfigurationCheck (straps : BitVec 5) (image : List Byte) (s : State) : Host.Outcome State Fault Refusal :=
  .next
    (if s.control.phase = .readingConfiguration then
      let config := checkConfiguration straps.toNat (imageRead s image)
      { s with
        control := { s.control with
          phase := .checkingStore, number := straps.toNat, config := config, configBadPin := config.isNone } }
    else s)

/-- STORE_CORRUPT raised for each failing record in number order (R29). -/
def raiseCorrupt (failing : List Nat) (s : State) : State :=
  failing.foldl (fun t n => raise .storeCorrupt (.shot n) t) s

/-- A request to each axis. -/
def requestAll (f : Axis → DriveRequest) : List DriveRequest := Axis.all.map f

/-- START_UP_CHECK: the failing records are marked and raised, then hearing, the tally age timer and the start-up position
read begin (R29, R132, R175, R9). -/
def execStartUpCheck (s : State) : Host.Outcome State Fault Refusal :=
  .next
    (if s.control.phase = .checkingStore then
      let failing := failingRecords s.store.areas
      let t := raiseCorrupt failing { s with store := { s.store with corrupt := failing } }
      { t with
        control := { t.control with phase := .hearing }
        tally := { t.tally with timer := true }
        port := { t.port with requests := requestAll .read } }
    else s)

/-- POSITION_READ_INTERVAL: a read request again to every drive not yet answered (R9). -/
def execPositionReadInterval (s : State) : Host.Outcome State Fault Refusal :=
  .next
    (whenHearing
      (fun s =>
        if s.control.readEnded then s
        else
          { s with
            port := { s.port with requests := (Axis.all.filter fun a => !s.port.answered.get a).map .read } })
      s)

/-! ### Going online and joining -/

/-- The setpoint requests of an exchange: each axis's last setpoint (R5, R10). -/
def setpointRequests (s : State) : List DriveRequest := requestAll fun a => .setpoint a (s.port.lastSetpoint.get a)

/-- Entry to JOINING from OFFLINE: ONLINE pin and drive enable asserted, the servo period timer started with a setpoint
exchange, the join timer started (R10, R130, R179). -/
def enterJoining (s : State) : State :=
  { s with
    control := { s.control with station := .joining, onlinePin := true, driveEnable := true, joinTimer := true }
    port := { s.port with
      servoTimer := true
      exchange := some ⟨s.port.lastSetpoint, everyAxis none⟩
      requests := setpointRequests s } }

/-- The conditions under which the station goes online (R178, R179). -/
def mayGoOnline (s : State) : Bool :=
  s.control.station == .offline && s.control.config.isSome && s.control.readEnded && !s.control.identityConflict

/-- ONLINE (R179). -/
def execOnline (h : Header) (s : State) : Host.Outcome State Fault Refusal :=
  .next (heardFromCue h (fun s => if mayGoOnline s then enterJoining s else s) s)

/-- Entry to ACTIVE from JOINING (R91, R149, R180): PARKED laid and tested, the heartbeat started, and the test of R168. -/
def enterActive (s : State) : State :=
  let t := setMarker { s with control := { s.control with station := .active, joinTimer := false } }
  let t := overlapAll (setOwn [parkedClaim t] t)
  let t := { t with bus := { t.bus with heartbeat := true } }
  if t.control.station = .active ∧ stopFlagSet t = true then enterFaultStop t else t

/-- JOIN_TIMER_EXPIRY (R180). -/
def execJoinTimerExpiry (s : State) : Host.Outcome State Fault Refusal :=
  .next (whenHearing (fun s => if s.control.joinTimer then enterActive s else s) s)

/-! ### Restart -/

/-- RESTART at its taking (R182). -/
def takeRestart (s : State) : State :=
  if s.control.station = .offline then s
  else
    match s.profile.motion with
    | .idle => restartEffect s
    | .stopping => { s with control := { s.control with restartPending := true } }
    | _ =>
      let t := beginStop .restart (setHeadEnding .cancelled s)
      { t with control := { t.control with restartPending := true } }

/-- RESTART (R182). -/
def execRestart (h : Header) (s : State) : Host.Outcome State Fault Refusal := .next (heardFromCue h takeRestart s)

end Sys2Proof.Machine
end

