-- ==== Sys2Proof/Machine/Drives.lean ====
section
/-! DEFINITION. The drive link and the servo period: DRIVE_REPLY, SERVO_PERIOD_EXPIRY, BLANKING_WINDOW_EXPIRY (R3 to R10,
R114 to R129). -/
namespace Sys2Proof.Machine

/-! ### Replies -/

/-- The following error: the magnitude of the difference of position and paired setpoint (R126). -/
def followingError (actual paired : Position) : Nat :=
  (actual.toNat - paired.toNat) + (paired.toNat - actual.toNat)

/-- FOLLOWING_ERROR raised when the following error exceeds E while drive enable is asserted (R126, R129). -/
def checkFollowing (a : Axis) (actual paired : Position) (s : State) : State :=
  if s.control.driveEnable = true ∧ ((configOf s).axes.get a).error < followingError actual paired then
    raise .followingError (.axis a) s
  else s

/-- The blanking windows are running (R126, R128). -/
def blankingRuns (s : State) : Bool :=
  match s.port.blanking with
  | some (_ + 1) => true
  | _ => false

/-- An accepted reply recorded: last actual position and drive status (R4). -/
def recordReply (a : Axis) (r : DriveReply) (s : State) : State :=
  { s with
    port := { s.port with
      lastActual := s.port.lastActual.set a r.position
      driveStatus := s.port.driveStatus.set a (driveStatusOf r.status) } }

/-- A reply in an open exchange: accepted when the axis has none yet; then recorded, checked for following error unless the
blanking window runs, and DRIVE_FAULT raised for a FAULT status (R4, R6, R8, R126, log 11). -/
def replyInExchange (a : Axis) (r : DriveReply) (x : Exchange) (s : State) : State :=
  match x.replies.get a with
  | some _ => s
  | none =>
    let t := recordReply a r s
    let t := { t with
      port := { t.port with exchange := some { x with replies := x.replies.set a (some r.position) } } }
    let t := if blankingRuns t then t else checkFollowing a r.position (x.paired.get a) t
    if driveStatusOf r.status = .fault then raise .driveFault (.axis a) t else t

/-- Every drive has answered the start-up position read (R9). -/
def allAnswered (s : State) : Bool := Axis.all.all fun a => s.port.answered.get a

/-- The end of the start-up position read; with auto-online the station enters JOINING (R178). -/
def endPositionRead (s : State) : State :=
  let t := { s with control := { s.control with readEnded := true } }
  if (configOf t).autoOnline && mayGoOnline t then enterJoining t else t

/-- A reply to a read request of the start-up position read (R4, R9). -/
def replyInRead (a : Axis) (r : DriveReply) (s : State) : State :=
  if s.port.answered.get a then s
  else
    let t := recordReply a r s
    let t := { t with
      port := { t.port with
        lastSetpoint := t.port.lastSetpoint.set a r.position
        answered := t.port.answered.set a true } }
    if allAnswered t then endPositionRead t else t

/-- DRIVE_REPLY: a reply with a good check word and an axis index 0–6 is accepted in the open exchange, or, in the start-up
position read, as an answer to it; any other is discarded (R4). -/
def takeReply (r : DriveReply) (s : State) : State :=
  if r.check = replyCheck r then
    match axisOfIndex r.index.toNat with
    | none => s
    | some a =>
      match s.port.exchange with
      | some x => replyInExchange a r x s
      | none => if s.control.readEnded then s else replyInRead a r s
  else s

/-- DRIVE_REPLY (R4). -/
def execDriveReply (r : DriveReply) (s : State) : Host.Outcome State Fault Refusal := .next (whenHearing (takeReply r) s)

/-! ### The servo period expiry -/

/-- One servo period less for the blanking windows (R128). -/
def countBlanking (s : State) : State :=
  { s with
    port := { s.port with
      blanking := match s.port.blanking with
        | some (n + 1) => some n
        | _ => none } }

/-- The step of the rate: S_f in a stop of kind FAULT, else S (R116). -/
def rateStep (s : State) : Nat := if s.profile.stopKind = some .fault then (configOf s).faultStep else (configOf s).step

/-- A stop is in progress. -/
def stopping (s : State) : Bool := s.profile.motion == .stopping

/-- The rate after step 1 of this period (R114, R116). -/
def nextRate (s : State) : Nat := stepToward (rateStep s) (rateTarget s) s.profile.rate

/-- Profile time after step 2 of this period (R114, R117). -/
def nextTime (p : RunningPlan) (s : State) : Nat :=
  advanceTime p (stopping s) s.profile.leg1Passed s.profile.time (nextRate s)

/-- Steps 1 to 4 of the profile generator: rate, profile time, setpoints handed; HELD is entered when the rate is 0 under a
hold (R114, R122). -/
def runPeriod (p : RunningPlan) (s : State) : State :=
  let r := nextRate s
  let t := nextTime p s
  let u := { s with
    profile := { s.profile with rate := r, time := t }
    port := { s.port with lastSetpoint := setpointsAt p t } }
  if r = 0 ∧ s.profile.hold = true ∧ stopping s = false then setMotion .held u else u

/-- This period reaches the end of leg 1 (R119). -/
def reachesLeg1End (p : RunningPlan) (s : State) : Bool :=
  twoLegs p && !s.profile.leg1Passed && decide (leg1End p ≤ nextTime p s)

/-- The end of leg 1: marked, the blanking windows restarted, the rectangle of leg 1 removed (R87, R119). -/
def endLeg1 (s : State) : State :=
  let t := restartBlanking { s with profile := { s.profile with leg1Passed := true } }
  changeClaims (t.claims.own.filter fun o => !(o.claim.kind == .leg && o.leg == 1)) t

/-- The profile generator's whole work at an expiry at which a move exists: steps 1 to 4, then the end of leg 1,
completion, stop completion (R114, R119, R120, R125). -/
def movePeriod (p : RunningPlan) (s : State) : State :=
  let t := runPeriod p s
  let t := if reachesLeg1End p s then endLeg1 t else t
  if stopping s then (if nextRate s = 0 then stopCompletion t else t)
  else if moveEnd p ≤ nextTime p s then takeUpHead (completeMove t)
  else t

/-- An axis with no reply in the closed exchange: status FAULT, DRIVE_FAULT raised (R7, R8). -/
def missedReply (x : Exchange) (s : State) (a : Axis) : State :=
  match x.replies.get a with
  | some _ => s
  | none => raise .driveFault (.axis a) { s with port := { s.port with driveStatus := s.port.driveStatus.set a .fault } }

/-- The exchange of the period just ended is closed (R5, R7). -/
def closeExchange (s : State) : State :=
  match s.port.exchange with
  | none => s
  | some x => Axis.all.foldl (missedReply x) { s with port := { s.port with exchange := none, closed := some x } }

/-- A new exchange is opened: each axis's last setpoint is sent, and replies will be paired with the setpoints sent one
expiry before (R5, R6). -/
def openExchange (sentBefore : PerAxis Position) (s : State) : State :=
  { s with
    port := { s.port with exchange := some ⟨sentBefore, everyAxis none⟩, requests := setpointRequests s } }

/-- The servo period expiry: the profile generator's work, then the axis port's (R5, R114, log 10). -/
def servoPeriod (s : State) : State :=
  let t := countBlanking s
  let t := match t.profile.plan with
    | some p => if moveExists t then movePeriod p t else t
    | none => t
  openExchange s.port.lastSetpoint (closeExchange t)

/-- SERVO_PERIOD_EXPIRY (R114). -/
def execServoPeriodExpiry (s : State) : Host.Outcome State Fault Refusal :=
  .next (whenHearing (fun s => if s.port.servoTimer then servoPeriod s else s) s)

/-! ### The blanking windows' expiry -/

/-- The exchange closed at the expiry of the blanking windows: the one just closed when the servo period expiry has been
taken, the open one when it is still to be taken; none while the windows are not at their expiry (R129, log 12). -/
def exchangeAtExpiry (s : State) : Option Exchange :=
  match s.port.blanking with
  | some 0 => s.port.closed
  | some 1 => s.port.exchange
  | _ => none

/-- The latest pair of an axis checked again (R129). -/
def recheckAxis (x : Exchange) (s : State) (a : Axis) : State :=
  match x.replies.get a with
  | none => s
  | some actual => checkFollowing a actual (x.paired.get a) s

/-- The check of every latest pair at the expiry, the windows being stopped (R129). -/
def recheckPairs (x : Exchange) (s : State) : State :=
  Axis.all.foldl (recheckAxis x) { s with port := { s.port with blanking := none } }

/-- One servo period expiry more for windows that were restarted at an expiry which is still to be taken: that expiry counts
as their restart and not as the first of the W (R128). -/
def addRestartPeriod (s : State) : State := { s with port := { s.port with blanking := s.port.blanking.map (· + 1) } }

/-- The blanking windows expire (R129). Taken before the servo period expiry of the same moment, a restart by the fault stop
it raises is made at that expiry (R128, log 12). -/
def expireBlanking (s : State) : State :=
  match exchangeAtExpiry s with
  | none => s
  | some x => if s.port.blanking = some 1 then addRestartPeriod (recheckPairs x s) else recheckPairs x s

/-- BLANKING_WINDOW_EXPIRY (R129). -/
def execBlankingWindowExpiry (s : State) : Host.Outcome State Fault Refusal := .next (whenHearing expireBlanking s)

end Sys2Proof.Machine
end

