-- ==== Sys2Proof/Machine/GroupMoves.lean ====
section
/-! DEFINITION. Group moves: recording readiness, the start event, withdrawals, READY, GROUP_WAIT_EXPIRY,
START_DELAY_EXPIRY (R99 to R107). -/
namespace Sys2Proof.Machine

/-- The records with the one of a group changed. -/
def modifyRecord (group : Byte) (f : GroupRecord → GroupRecord) (s : State) : State :=
  { s with
    groups := { s.groups with records := s.groups.records.map fun r => if r.group = group then f r else r } }

/-- A member's readiness recorded in its slot, over an earlier one (R100). -/
def recordSlot (number n g : Nat) (r : GroupRecord) : GroupRecord :=
  { r with slots := r.slots.map fun m => if m.number = number then { m with ready := some (n, g) } else m }

/-- Every slot is recorded (R104). -/
def complete (r : GroupRecord) : Bool := r.slots.all fun m => m.ready.isSome

/-- The N and G recorded. -/
def recorded (r : GroupRecord) : List (Nat × Nat) := r.slots.filterMap Slot.ready

/-- The greatest N recorded (R104). -/
def commonN (r : GroupRecord) : Nat := ((recorded r).map Prod.fst).foldl max 0

/-- The greatest G recorded (R104). -/
def commonG (r : GroupRecord) : Nat := ((recorded r).map Prod.snd).foldl max 0

/-- The place of the entry that owns a group's record. -/
def groupIndex (group : Byte) (s : State) : Option Nat := cueIndex (fun e => e.group == some group) s

/-- The plan of the entry at a place re-split to a common N (R64). -/
def resplitAtCue (k n : Nat) (s : State) : State :=
  modifyCue k (fun e => { e with plan := e.plan.map fun p => resplit p n }) s

/-- The start event of a record: common N and G fixed, STARTING, the group wait timer stopped, the plan re-split, the start
delay timer started (R104). -/
def startEvent (r : GroupRecord) (s : State) : State :=
  let t := modifyRecord r.group
    (fun r => { r with state := .starting, commonN := some (commonN r), commonG := some (commonG r) }) s
  let t := { t with groups := { t.groups with waitTimer := false, startDelay := some (commonG r) } }
  match groupIndex r.group t with
  | some k => resplitAtCue k (commonN r) t
  | none => t

/-- A readiness recorded for a group, and the record tested for completeness (R100, R103, R104). -/
def recordReadiness (group : Byte) (number n g : Nat) (s : State) : State :=
  let t := modifyRecord group (recordSlot number n g) s
  match groupRecord group t with
  | some r => if complete r then startEvent r t else t
  | none => t

/-- A withdrawal taken for a COLLECTING record: the owning entry fails GROUP_ABANDONED, and this station's readiness is
removed unsent or left to finish (R106). -/
def abandonGroup (group : Byte) (s : State) : State :=
  match groupIndex group s with
  | some k => leaveAt k (.failed .groupAbandoned) false (dropReadiness group s)
  | none => s

/-- A READY taken for a record whose member set holds its source (R99, R100, R106). -/
def takeReady (number : Nat) (p : ReadyPayload) (s : State) : State :=
  match groupRecord p.group s with
  | none => s
  | some r =>
    if r.slots.any (fun m => m.number == number) && r.state == .collecting then
      if readyWithdrawn p then abandonGroup p.group s
      else recordReadiness p.group number p.duration.toNat p.delay.toNat s
    else s

/-- READY: observed whatever its destination (R99). -/
def execReady (h : Header) (p : ReadyPayload) (s : State) : Host.Outcome State Fault Refusal :=
  .next (heard h (takeReady (sourceOf h) p) s)

/-- The group wait timer expires: the head fails GROUP_TIMEOUT and a withdrawal is queued (R107, R108). -/
def expireGroupWait (s : State) : State :=
  leaveAt 0 (.failed .groupTimeout) true { s with groups := { s.groups with waitTimer := false } }

/-- GROUP_WAIT_EXPIRY (R107). -/
def execGroupWaitExpiry (s : State) : Host.Outcome State Fault Refusal :=
  .next (whenHearing (fun s => if s.groups.waitTimer then expireGroupWait s else s) s)

/-- The head entry is in GROUP_WAIT with its record STARTING (R105). -/
def headStarting (s : State) : Bool :=
  match s.cues with
  | [] => false
  | e :: _ => e.stage == .groupWait && entryGroupState e s == some .starting

/-- The record of the head becomes ENDED (R105). -/
def endRecord (s : State) : State :=
  match s.cues.head?.bind CueEntry.group with
  | some g => modifyRecord g (fun r => { r with state := .ended }) s
  | none => s

/-- The scheduled start: the head starts its re-split plan, the record becomes ENDED; a common N of 0 completes at once
(R44, R105, R67). -/
def groupStart (s : State) : State :=
  match startHead (endRecord s) with
  | (t, true) => takeUpHead t
  | (t, false) => t

/-- The start delay timer expires (R105). -/
def expireStartDelay (s : State) : State :=
  let t := { s with groups := { s.groups with startDelay := none } }
  if t.control.station = .active ∧ headStarting t = true then groupStart t else t

/-- START_DELAY_EXPIRY (R105). -/
def execStartDelayExpiry (s : State) : Host.Outcome State Fault Refusal :=
  .next (whenHearing (fun s => if s.groups.startDelay.isSome then expireStartDelay s else s) s)

end Sys2Proof.Machine
end

