-- ==== Sys2Proof/Machine/ShotRequests.lean ====
section
/-! DEFINITION. The shot store's requests and its write completion: STORE_SHOT, CAPTURE_SHOT, ERASE_SHOT, READ_SHOT,
WRITE_COMPLETION (R18 to R28). -/
namespace Sys2Proof.Machine

/-- A write starts: the marker holds the number and the content (R23). -/
def startWrite (shot : Byte) (content : Record) (s : State) : State :=
  { s with store := { s.store with write := some ⟨shot.toNat, content⟩ } }

/-- The last tests of a store request: BUSY while a write is in flight, UNCHANGED when the record already has the content
and no corrupt mark, else the write starts (R19, R20, R21, R22). -/
def writeUnlessSame (shot : Byte) (content : Record) (s : State) : State :=
  if s.store.write.isSome then reportStore shot .busy s
  else if recordOf s.store shot.toNat = content ∧ s.store.corrupt.contains shot.toNat = false then
    reportStore shot .unchanged s
  else startWrite shot content s

/-- The tests of a STORE_SHOT (R19). -/
def storeShot (shot : Byte) (body : RecordBody) (s : State) : State :=
  if lastShot < shot.toNat then reportStore shot .badNumber s
  else if !labelPrintable body.label || !bodySound body then reportStore shot .badRecord s
  else writeUnlessSame shot (.valid (bodyContent body)) s

/-- A request of the shot store taken while ACTIVE or FAULT_STOP (R18). -/
def whileOnBus (f : State → State) (s : State) : State := if onBus s then f s else s

/-- STORE_SHOT (R19). -/
def execStoreShot (h : Header) (shot : Byte) (body : RecordBody) (s : State) : Host.Outcome State Fault Refusal :=
  .next (heardFromCue h (whileOnBus (storeShot shot body)) s)

/-- The captured content: every axis at its last setpoint (R20). -/
def capturedContent (label : List Byte) (s : State) : ShotContent :=
  { targets := PerAxis.ofFn fun a => some (s.port.lastSetpoint.get a)
    moveTime := none
    routeHint := .either
    livePermitted := false
    label := labelOf label }

/-- The tests of a CAPTURE_SHOT (R20). -/
def captureShot (shot : Byte) (label : List Byte) (s : State) : State :=
  if lastShot < shot.toNat then reportStore shot .badNumber s
  else if !labelPrintable label then reportStore shot .badRecord s
  else if s.profile.motion ≠ .idle then reportStore shot .notIdle s
  else writeUnlessSame shot (.valid (capturedContent label s)) s

/-- CAPTURE_SHOT (R20). -/
def execCaptureShot (h : Header) (shot : Byte) (label : List Byte) (s : State) : Host.Outcome State Fault Refusal :=
  .next (heardFromCue h (whileOnBus (captureShot shot label)) s)

/-- The tests of an ERASE_SHOT (R21). -/
def eraseShot (shot : Byte) (s : State) : State :=
  if lastShot < shot.toNat then reportStore shot .badNumber s else writeUnlessSame shot .empty s

/-- ERASE_SHOT (R21). -/
def execEraseShot (h : Header) (shot : Byte) (s : State) : Host.Outcome State Fault Refusal :=
  .next (heardFromCue h (whileOnBus (eraseShot shot)) s)

/-- The cursor of a READ_SHOT: the count clamped into 1–8, 1 for a number above 127 (R26). -/
def readCursor (first count : Byte) : ReadCursor :=
  ⟨first.toNat, if lastShot < first.toNat then 1 else max 1 (min 8 count.toNat)⟩

/-- A READ_SHOT replaces the read cursor whole (R26); a SHOT_DATA in transmission will not advance it (R27). -/
def readShot (first count : Byte) (s : State) : State :=
  { s with
    bus := { s.bus with
      cursor := readCursor first count
      transmission := s.bus.transmission.map fun t => { t with cursorReplaced := true } } }

/-- READ_SHOT (R26). -/
def execReadShot (h : Header) (first count : Byte) (s : State) : Host.Outcome State Fault Refusal :=
  .next (heardFromCue h (whileOnBus (readShot first count)) s)

/-! ### Write completion (R24) -/

/-- A STORE_REPORT of a write completion, queued while ACTIVE or FAULT_STOP (R24). -/
def reportWrite (shot : Nat) (o : StoreOutcome) (s : State) : State :=
  if onBus s then reportStore (BitVec.ofNat 8 shot) o s else s

/-- The verify passes: the record takes the content, its corrupt mark is cleared (R24). -/
def writeVerified (w : WriteInFlight) (s : State) : State :=
  reportWrite w.shot .written
    { s with
      store := { s.store with
        areas := writeArea w.shot (storedForm w.content) s.store.areas
        corrupt := eraseNumber w.shot s.store.corrupt
        write := none } }

/-- The verify fails: the record becomes EMPTY, its corrupt mark is set (R24). -/
def writeFailed (w : WriteInFlight) (s : State) : State :=
  reportWrite w.shot .writeFailed
    { s with
      store := { s.store with
        areas := writeArea w.shot (areaAfterFailedVerify s.free) s.store.areas
        corrupt := insertNumber w.shot s.store.corrupt
        write := none }
      free := s.free + 1 }

/-- An entry waits for a record's write. -/
def waitsFor (shot : Nat) (e : CueEntry) : Bool := e.stage == .queued && e.shot == shot

/-- The entries that wait for the written record make their planning reads afresh (R24, R42, R46). -/
def readAfresh (shot : Nat) (s : State) : State :=
  match s.cues with
  | [] => s
  | e :: rest =>
    if waitsFor shot e then takeUpHead s
    else
      match rest with
      | [] => s
      | f :: _ => if waitsFor shot f then takeUpSecond s else s

/-- The write in flight ends (R24). -/
def completeWrite (verified : Bool) (s : State) : State :=
  match s.store.write with
  | none => s
  | some w => readAfresh w.shot (if verified then writeVerified w s else writeFailed w s)

/-- WRITE_COMPLETION (R24). -/
def execWriteCompletion (verified : Bool) (s : State) : Host.Outcome State Fault Refusal :=
  .next (whenHearing (completeWrite verified) s)

end Sys2Proof.Machine
end

