-- ==== Sys2Proof/Machine/Transmit.lean ====
section
/-! DEFINITION. Transmission: TRANSMISSION_START, TRANSMISSION_COMPLETION, ABANDON, SPENT_IDLE_EXPIRY and HEARTBEAT_EXPIRY
(R27, R78, R103, R144 to R153). -/
namespace Sys2Proof.Machine

/-! ### Transmission start (R150, R151) -/

/-- The gap of a class for an address, in µs (R151). -/
def gap (cls addr : Nat) : Nat := 8 + 32 * cls + addr

/-- The STATE frame built from the state that stands (R150). -/
def buildState (s : State) : StateFrame :=
  { station := s.control.station
    motion := s.profile.motion
    onAir := s.tally.onAir
    floorX := s.port.lastSetpoint.x
    floorY := s.port.lastSetpoint.y
    claims := s.claims.own.map OwnClaim.claim
    head := s.cues.head?.map fun e => (e.tag, e.stage)
    listLength := s.cues.length
    faults := s.faults
    reportsLost := s.bus.reportsLost
    hold := s.profile.hold }

/-- The 41 bytes of the record body in a stored form (chapter 12.4). -/
def storedBody (area : List Byte) : List Byte := (area.drop 1).take 41

/-- The SHOT_DATA built from the read cursor and the store (R27): a VALID record's body as stored (chapter 12.4), else
zeros (R185). -/
def buildShotData (s : State) : OutFrame :=
  let n := s.bus.cursor.next
  if lastShot < n then .shotData n .noSuchShot emptyBody
  else
    match recordOf s.store n with
    | .empty => .shotData n .empty emptyBody
    | .valid _ => .shotData n .valid (storedBody (areaOf s.store.areas n))

/-- The next frame of the highest non-empty class, with that class (R145). -/
def nextFrame (s : State) : Option (Nat × OutFrame) :=
  match s.bus.readyFifo with
  | r :: _ => some (0, .ready r)
  | [] =>
    if s.bus.stateMarker then some (0, .state (buildState s))
    else
      match s.bus.reportFifo with
      | r :: _ => some (1, .report r)
      | [] => if 0 < s.bus.cursor.remaining then some (2, buildShotData s) else none

/-- A STATE frame in transmission clears the STATE marker (R148). -/
def isStateFrame : OutFrame → Bool
  | .state _ => true
  | _ => false

/-- A frame goes into transmission; BUS_DE is asserted (R148, R184). -/
def beginTransmission (f : OutFrame) (s : State) : State :=
  { s with
    bus := { s.bus with
      transmission := some ⟨f, frameBytes s.control.number f, false, false, false⟩
      stateMarker := s.bus.stateMarker && !isStateFrame f
      driverEnable := true } }

/-- A transmission begins when the station is ACTIVE or FAULT_STOP, not spent, with none in progress, and the bus's idle
time has reached the gap of the highest non-empty class (R151). -/
def startTransmission (idle : Nat) (s : State) : State :=
  if onBus s = true ∧ s.bus.spent = false ∧ s.bus.transmission = none then
    match nextFrame s with
    | none => s
    | some (cls, f) => if gap cls s.control.number ≤ idle then beginTransmission f s else s
  else s

/-- TRANSMISSION_START (R151). -/
def execTransmissionStart (idle : Nat) (s : State) : Host.Outcome State Fault Refusal :=
  .next (whenHearing (startTransmission idle) s)

/-! ### Transmission completion (R144) -/

/-- A READY sent leaves the FIFO; this station's readiness is recorded in its own slot when its record still exists and is
COLLECTING (R103, R145). -/
def readySentOut (r : QueuedReady) (s : State) : State :=
  let t := { s with bus := { s.bus with readyFifo := s.bus.readyFifo.tail } }
  if r.withdrawn then t
  else if (s.bus.readyFifo.head?.map QueuedReady.orphan).getD false then t
  else
    match groupRecord r.group t with
    | some g =>
      if g.state = .collecting then recordReadiness r.group s.control.number r.duration r.delay t else t
    | none => t

/-- A claim that announces a PENDING rectangle: same cells, same rank (R78; the kind may have been relabelled since, R88). -/
def announces (o : OwnClaim) (c : Claim) : Bool := c.rect == o.claim.rect && c.state == o.claim.state

/-- A completed STATE frame carried every PENDING rectangle of the own claim set, none added since its start (R78). -/
def carriedPending (p : StateFrame) (legsAdded : Bool) (s : State) : Bool :=
  !legsAdded && (s.claims.own.filter fun o => !isHeld o).all fun o => p.claims.any (announces o)

/-- The settle timer starts when an entry is CLAIMING and the frame carried all its PENDING rectangles (R78). -/
def startSettle (p : StateFrame) (legsAdded : Bool) (s : State) : State :=
  if s.cues.any (fun e => e.stage == .claiming) && !s.claims.settleTimer && carriedPending p legsAdded s then
    { s with claims := { s.claims with settleTimer := true } }
  else s

/-- A STATE frame sent: the heartbeat timer restarts, the reports-lost flag is cleared when the frame carried it and no
report was discarded since, the settle timer may start (R78, R147, R149). -/
def stateSentOut (p : StateFrame) (t : Transmission) (s : State) : State :=
  startSettle p t.legsAdded
    { s with
      bus := { s.bus with
        heartbeat := true
        reportsLost := s.bus.reportsLost && !(p.reportsLost && !t.reportDiscarded) } }

/-- The read cursor after its SHOT_DATA was sent: one fewer remaining, the number wrapping from 127 to 0 (R27). -/
def cursorAfter (c : ReadCursor) : ReadCursor :=
  if c.remaining ≤ 1 then ⟨0, 0⟩ else ⟨if c.next = lastShot then 0 else c.next + 1, c.remaining - 1⟩

/-- What every completed transmission does: no frame in transmission, spent, abandon count 0, BUS_DE deasserted (R152,
R153, R184). -/
def endTransmission (s : State) : State :=
  { s with
    bus := { s.bus with transmission := none, spent := true, abandonCount := 0, driverEnable := false } }

/-- The effects of a completed transmission (R144). -/
def completeTransmission (s : State) : State :=
  match s.bus.transmission with
  | none => s
  | some t =>
    let u := endTransmission s
    match t.frame with
    | .ready r => readySentOut r u
    | .state p => stateSentOut p t u
    | .report _ => { u with bus := { u.bus with reportFifo := u.bus.reportFifo.tail } }
    | .shotData _ _ _ =>
      if t.cursorReplaced then u else { u with bus := { u.bus with cursor := cursorAfter u.bus.cursor } }

/-- TRANSMISSION_COMPLETION (R144). -/
def execTransmissionCompletion (s : State) : Host.Outcome State Fault Refusal :=
  .next (whenHearing completeTransmission s)

/-! ### Abandon, spent, heartbeat -/

/-- The abandons in a row that raise BUS_CONTENTION (R153). -/
def contentionCount : Nat := 16

/-- The abandon count rises; at 16 BUS_CONTENTION is raised and the count is 0 (R153). -/
def countAbandon (s : State) : State :=
  if s.bus.abandonCount + 1 < contentionCount then
    { s with bus := { s.bus with abandonCount := s.bus.abandonCount + 1 } }
  else raise .busContention .nothing { s with bus := { s.bus with abandonCount := 0 } }

/-- The abandoned frame stays where it was held: a STATE frame sets the marker again, and a readiness marked `orphan`
leaves the READY FIFO (R102, R148, R153). -/
def keepAbandoned (f : OutFrame) (s : State) : State :=
  match f with
  | .state _ => setMarker s
  | .ready _ =>
    if (s.bus.readyFifo.head?.map QueuedReady.orphan).getD false then
      { s with bus := { s.bus with readyFifo := s.bus.readyFifo.tail } }
    else s
  | _ => s

/-- A transmission abandoned (R153). The frame is back in its queue, its transmission not started, when the sixteenth abandon
raises BUS_CONTENTION: a fault stop then puts a withdrawal in the place of the abandoned readiness of a GROUP_WAIT head
(R102, R108), which R167 leaves queued (DESIGN CHOICE, log 29). -/
def abandonTransmission (s : State) : State :=
  match s.bus.transmission with
  | none => s
  | some t =>
    countAbandon
      (keepAbandoned t.frame { s with bus := { s.bus with transmission := none, driverEnable := false } })

/-- ABANDON (R153). -/
def execAbandon (s : State) : Host.Outcome State Fault Refusal := .next (whenHearing abandonTransmission s)

/-- SPENT_IDLE_EXPIRY: the bus has stayed idle for 104 µs (R152). -/
def execSpentIdleExpiry (s : State) : Host.Outcome State Fault Refusal := .next (whenHearing endSpent s)

/-- The heartbeat timer expires and sets the STATE marker; it runs again from the next STATE frame sent (R149, log 17). -/
def expireHeartbeat (s : State) : State := setMarker { s with bus := { s.bus with heartbeat := false } }

/-- HEARTBEAT_EXPIRY (R149). -/
def execHeartbeatExpiry (s : State) : Host.Outcome State Fault Refusal :=
  .next (whenHearing (fun s => if s.bus.heartbeat then expireHeartbeat s else s) s)

end Sys2Proof.Machine
end

