-- ==== Sys2Proof/Machine/Watch.lean ====
section
/-! DEFINITION. What watches the floor, the tally and the faults: TALLY, STATE_FRAME, FORGET_PEER, CLEAR_FAULTS and the
tally and peer age timers (R72, R79, R80, R94 to R96, R133 to R135, R157 to R159, R170, R171). -/
namespace Sys2Proof.Machine

/-! ### Tally (R133 to R135) -/

/-- The on-air view a program set gives; a station without a pedestal's number is on air (R133). -/
def viewOf (program : BitVec 16) (s : State) : Bool :=
  if isPedestal s.control.number then inPedestalSet program s.control.number else true

/-- The on-air view set; a change sets the STATE marker, has the rate target evaluated again and the head tested (R134). -/
def setView (onAir : Bool) (s : State) : State :=
  if s.tally.onAir = onAir then s
  else retestHead (retarget s (setMarker { s with tally := { s.tally with onAir := onAir } }))

/-- A TALLY taken (R133). -/
def takeTally (program : BitVec 16) (s : State) : State :=
  setView (viewOf program s) { s with tally := { s.tally with status := .current, timer := true } }

/-- TALLY: taken from source 31 only, whatever its destination (R133). -/
def execTally (h : Header) (program : BitVec 16) (s : State) : Host.Outcome State Fault Refusal :=
  .next (heard h (fun s => if sourceOf h = tallyStation then takeTally program s else s) s)

/-- The tally age timer expires: LOST, on air, TALLY_LOST (R135). Where the head's deferral first applies at this event,
DEFERRED is queued before the fault report, in the order of R135's steps and of R167, although R137 has DEFERRED follow the
event's other reports (DESIGN CHOICE, log 32). -/
def loseTally (s : State) : State :=
  raise .tallyLost .nothing (setView true { s with tally := { s.tally with status := .lost, timer := false } })

/-- TALLY_AGE_EXPIRY (R135). -/
def execTallyAgeExpiry (s : State) : Host.Outcome State Fault Refusal :=
  .next (whenHearing (fun s => if s.tally.timer then loseTally s else s) s)

/-! ### Peer table (R156 to R159) -/

/-- An entry put into the peer table in place of any with its number (R157). -/
def insertPeer (p : PeerEntry) : List PeerEntry → List PeerEntry
  | [] => [p]
  | q :: qs =>
    if p.number < q.number then p :: q :: qs
    else if p.number = q.number then p :: qs
    else q :: insertPeer p qs

/-- The place of the entry that is CLAIMING; at most one is (R46, R78). -/
def claimingIndex (s : State) : Option Nat := cueIndex (fun e => e.stage == .claiming) s

/-- A conflicting rectangle that makes a CLAIMING entry lose: HELD, or PENDING with a greater rank, the lower pedestal
number being the greater at equal priority and retry count (R74, R79). -/
def beats (own : Rank) (ownNumber : Nat) (c : Claim) (number : Nat) : Bool :=
  match c.state with
  | .held => true
  | .pending r =>
    decide (own.priority < r.priority ∨ (own.priority = r.priority ∧
      (own.retry < r.retry ∨ (own.retry = r.retry ∧ number < ownNumber))))

/-- Some rectangle of a heard STATE frame conflicts with a pending leg of the entry and makes it lose (R79). -/
def losesTo (e : CueEntry) (claims : List Claim) (number : Nat) (s : State) : Bool :=
  match e.plan with
  | none => false
  | some p =>
    (chosenRoute p).legs.any fun l =>
      claims.any fun c =>
        legConflicts p.startFootprint c.rect l && beats ⟨e.priority, e.retry⟩ s.control.number c number

/-- A loss: the PENDING rectangles removed, the retry count raised (at most 15), the chosen mark cleared, the settle timer
stopped, ROUTING, and the route tested again (R80). -/
def loseClaim (k : Nat) (s : State) : State :=
  let t := setOwn (s.claims.own.filter fun o => !ownedAt k o) s
  let t := modifyCue k
    (fun e =>
      { e with
        retry := min 15 (e.retry + 1)
        plan := e.plan.map fun p => { p with chosen := none }
        stage := .routing })
    t
  routeTest k (setMarker { t with claims := { t.claims with settleTimer := false } })

/-- The CLAIMING entry tested against a heard frame's rectangles (R79). -/
def testClaiming (claims : List Claim) (number : Nat) (s : State) : State :=
  match claimingIndex s with
  | none => s
  | some k =>
    match s.cues[k]? with
    | none => s
    | some e => if losesTo e claims number s then loseClaim k s else s

/-- A STATE frame of a peer taken: the peer entry created or replaced, LIVE; the CLAIMING entry tested, the entries in
ROUTING tested again, the peer tested for overlap (R72, R76, R79, R85, R95, R157). -/
def takeState (number : Nat) (claims : List Claim) (s : State) : State :=
  let t := { s with peers := insertPeer ⟨number, .live, claims⟩ s.peers }
  overlapTest number (retestRoutes (testClaiming claims number t))

/-- STATE_FRAME: taken from sources 1–16 by a station whose own number lies within 1–16 (R156, R157). -/
def execStateFrame (h : Header) (p : StatePayload) (s : State) : Host.Outcome State Fault Refusal :=
  .next
    (heard h
      (fun s =>
        if isPedestal (sourceOf h) && isPedestal s.control.number then takeState (sourceOf h) (payloadClaims p) s else s)
      s)

/-- A LIVE entry marked LOST, its claims kept (R158). -/
def markLost (number : Nat) (peers : List PeerEntry) : List PeerEntry :=
  peers.map fun p => if p.number = number then { p with status := .lost } else p

/-- The age timer of a peer entry runs: the entry is LIVE (R156). -/
def peerLive (number : Nat) (s : State) : Bool :=
  match peerOf number s with
  | some p => p.status == .live
  | none => false

/-- The age timer of a peer entry expires: LOST, PEER_LOST, entries in ROUTING tested again (R158). -/
def losePeer (number : Nat) (s : State) : State :=
  retestRoutes (raise .peerLost (.peer number) { s with peers := markLost number s.peers })

/-- PEER_AGE_EXPIRY (R158). -/
def execPeerAgeExpiry (number : Nat) (s : State) : Host.Outcome State Fault Refusal :=
  .next (whenHearing (fun s => if peerLive number s then losePeer number s else s) s)

/-- A peer entry removed: it is no obstacle any more, leaves the overlap set without a raise, and entries in ROUTING are
tested again (R85, R96, R159). -/
def forgetPeer (number : Nat) (s : State) : State :=
  if (peerOf number s).isSome then
    retestRoutes
      (setOverlap (eraseNumber number s.claims.overlap)
        { s with peers := s.peers.filter fun p => p.number != number })
  else s

/-- FORGET_PEER (R159). -/
def execForgetPeer (h : Header) (number : Byte) (s : State) : Host.Outcome State Fault Refusal :=
  .next (heardFromCue h (forgetPeer number.toNat) s)

/-! ### Clearing faults (R170, R171) -/

/-- The flags of the named classes cleared; a change sets the STATE marker (R163, R170). -/
def clearFlags (classes : BitVec 16) (s : State) : State :=
  let faults := clearClasses s.faults (inClassSet classes)
  if faults = s.faults then s else setMarker { s with faults := faults }

/-- A CLEAR_FAULTS taken: in FAULT_STOP with no STOP-severity flag left and the stop complete the station returns to ACTIVE
(R170, R171). -/
def takeClearFaults (classes : BitVec 16) (s : State) : State :=
  let t := clearFlags classes s
  if t.control.station = .faultStop ∧ stopFlagSet t = false ∧ t.profile.motion = .idle then returnToActive t else t

/-- CLEAR_FAULTS (R170). -/
def execClearFaults (h : Header) (classes : BitVec 16) (s : State) : Host.Outcome State Fault Refusal :=
  .next (heardFromCue h (takeClearFaults classes) s)

end Sys2Proof.Machine
end

