-- ==== Sys2Proof/Machine/Dispatch.lean ====
section
/-! DEFINITION. The meaning of every command: one arm per constructor, in the order of spec/opcode_table.json. -/
namespace Sys2Proof.Machine

/-- The effect of a command on everything but the queue of waiting commands. -/
def exec (i : Instr) (s : State) : Host.Outcome State Fault Refusal :=
  match i with
  | .powerOn => Sys2Proof.Machine.execPowerOn s
  | .pinReset => Sys2Proof.Machine.execPinReset s
  | .resetAsserted => Sys2Proof.Machine.execResetAsserted s
  | .powerLoss => Sys2Proof.Machine.execPowerLoss s
  | .configTransferAbandon => Sys2Proof.Machine.execConfigTransferAbandon s
  | .configurationCheck straps image => Sys2Proof.Machine.execConfigurationCheck straps image s
  | .startUpCheck => Sys2Proof.Machine.execStartUpCheck s
  | .positionReadInterval => Sys2Proof.Machine.execPositionReadInterval s
  | .driveReply reply => Sys2Proof.Machine.execDriveReply reply s
  | .servoPeriodExpiry => Sys2Proof.Machine.execServoPeriodExpiry s
  | .blankingWindowExpiry => Sys2Proof.Machine.execBlankingWindowExpiry s
  | .frameDiscarded => Sys2Proof.Machine.execFrameDiscarded s
  | .duplicateStationEvent => Sys2Proof.Machine.execDuplicateStationEvent s
  | .frameHeardNotTaken h => Sys2Proof.Machine.execFrameHeardNotTaken h s
  | .cue h p => Sys2Proof.Machine.execCue h p s
  | .take h tag => Sys2Proof.Machine.execTake h tag s
  | .groupTake h group => Sys2Proof.Machine.execGroupTake h group s
  | .cancel h tag => Sys2Proof.Machine.execCancel h tag s
  | .cancelAll h => Sys2Proof.Machine.execCancelAll h s
  | .hold h => Sys2Proof.Machine.execHold h s
  | .resume h => Sys2Proof.Machine.execResume h s
  | .storeShot h shot body => Sys2Proof.Machine.execStoreShot h shot body s
  | .captureShot h shot label => Sys2Proof.Machine.execCaptureShot h shot label s
  | .eraseShot h shot => Sys2Proof.Machine.execEraseShot h shot s
  | .readShot h first count => Sys2Proof.Machine.execReadShot h first count s
  | .writeCompletion verified => Sys2Proof.Machine.execWriteCompletion verified s
  | .clearFaults h classes => Sys2Proof.Machine.execClearFaults h classes s
  | .forgetPeer h number => Sys2Proof.Machine.execForgetPeer h number s
  | .online h => Sys2Proof.Machine.execOnline h s
  | .restart h => Sys2Proof.Machine.execRestart h s
  | .tally h program => Sys2Proof.Machine.execTally h program s
  | .stateFrame h p => Sys2Proof.Machine.execStateFrame h p s
  | .ready h p => Sys2Proof.Machine.execReady h p s
  | .transmissionStart idle => Sys2Proof.Machine.execTransmissionStart idle s
  | .transmissionCompletion => Sys2Proof.Machine.execTransmissionCompletion s
  | .abandon => Sys2Proof.Machine.execAbandon s
  | .spentIdleExpiry => Sys2Proof.Machine.execSpentIdleExpiry s
  | .settleExpiry => Sys2Proof.Machine.execSettleExpiry s
  | .claimWaitExpiry => Sys2Proof.Machine.execClaimWaitExpiry s
  | .groupWaitExpiry => Sys2Proof.Machine.execGroupWaitExpiry s
  | .startDelayExpiry => Sys2Proof.Machine.execStartDelayExpiry s
  | .tallyAgeExpiry => Sys2Proof.Machine.execTallyAgeExpiry s
  | .peerAgeExpiry number => Sys2Proof.Machine.execPeerAgeExpiry number s
  | .heartbeatExpiry => Sys2Proof.Machine.execHeartbeatExpiry s
  | .joinTimerExpiry => Sys2Proof.Machine.execJoinTimerExpiry s

end Sys2Proof.Machine
end

