-- ==== Sys2Proof/Machine/Reception.lean ====
section
/-! DEFINITION. From the bytes of a frame to the command its reception completion is: which frames are heard (R143), and
the kind table and payload layouts of chapter 12. The machine's commands carry the fields that are read here (log 19). -/
namespace Sys2Proof.Machine

/-- The fixed payload length of each kind; none for an unknown kind (chapter 12.1). -/
def payloadLength (kind : Byte) : Option Nat :=
  match kind.toNat with
  | 0x01 => some 6
  | 0x02 => some 1
  | 0x03 => some 1
  | 0x04 => some 2
  | 0x05 => some 0
  | 0x06 => some 0
  | 0x07 => some 42
  | 0x08 => some 17
  | 0x09 => some 1
  | 0x0A => some 2
  | 0x0B => some 2
  | 0x0C => some 1
  | 0x0D => some 0
  | 0x0E => some 0
  | 0x20 => some 2
  | 0x30 => some 39
  | 0x31 => some 6
  | 0x32 => some 3
  | 0x33 => some 2
  | 0x34 => some 43
  | 0x35 => some 2
  | _ => none

/-- A frame is heard: its kind is known, its payload length is the kind's, it ends where that length says, and its check
word matches (R143). -/
def frameHeard (bytes : List Byte) : Bool :=
  match payloadLength (byteAt bytes 2) with
  | none => false
  | some n => byteAt bytes 3 == byteOf n && bytes.length == n + 6 && checkHolds bytes (n + 4)

/-- The payload bytes of a frame. -/
def payloadOf (bytes : List Byte) : List Byte := bytes.drop 4

/-- The CUE payload (chapter 12.2). -/
def cuePayloadOf (p : List Byte) : CuePayload := ⟨byteAt p 0, byteAt p 1, byteAt p 2, byteAt p 3, word2 p 4⟩

/-- The READY payload (chapter 12.2). -/
def readyPayloadOf (p : List Byte) : ReadyPayload := ⟨byteAt p 0, byteAt p 1, word2 p 2, byteAt p 4, byteAt p 5⟩

/-- The claim rectangle slot at an offset (chapter 12.3). -/
def slotAt (p : List Byte) (i : Nat) : ClaimSlot :=
  ⟨byteAt p i, byteAt p (i + 1), byteAt p (i + 2), byteAt p (i + 3), byteAt p (i + 4), byteAt p (i + 5)⟩

/-- The STATE payload (chapter 12.3). -/
def statePayloadOf (p : List Byte) : StatePayload :=
  { status := byteAt p 0
    headTag := byteAt p 1
    headStage := byteAt p 2
    listLength := byteAt p 3
    floorX := word3 p 4
    floorY := word3 p 7
    sticky := word2 p 10
    recur := word2 p 12
    claimCount := byteAt p 14
    slots := [slotAt p 15, slotAt p 21, slotAt p 27, slotAt p 33] }

/-- The 16 bytes of the label field of a CAPTURE_SHOT payload (chapter 12.1). -/
def labelField (p : List Byte) : List Byte := (List.range 16).map fun k => byteAt p (k + 1)

/-- The command of a heard frame with a known kind (chapter 12.1); a report is heard and not taken (R142). -/
def heardCommand (h : Header) (kind : Byte) (p : List Byte) : Instr :=
  match kind.toNat with
  | 0x01 => .cue h (cuePayloadOf p)
  | 0x02 => .take h (byteAt p 0)
  | 0x03 => .groupTake h (byteAt p 0)
  | 0x04 => if (byteAt p 0).getLsbD 0 then .cancelAll h else .cancel h (byteAt p 1)
  | 0x05 => .hold h
  | 0x06 => .resume h
  | 0x07 => .storeShot h (byteAt p 0) (bodyAt p 1)
  | 0x08 => .captureShot h (byteAt p 0) (labelField p)
  | 0x09 => .eraseShot h (byteAt p 0)
  | 0x0A => .readShot h (byteAt p 0) (byteAt p 1)
  | 0x0B => .clearFaults h (word2 p 0)
  | 0x0C => .forgetPeer h (byteAt p 0)
  | 0x0D => .online h
  | 0x0E => .restart h
  | 0x20 => .tally h (word2 p 0)
  | 0x30 => .stateFrame h (statePayloadOf p)
  | 0x31 => .ready h (readyPayloadOf p)
  | _ => .frameHeardNotTaken h

/-- The command that the reception completion of a frame is: discarded unless heard (R143). -/
def receive (bytes : List Byte) : Instr :=
  if frameHeard bytes then
    heardCommand ⟨byteAt bytes 0, byteAt bytes 1⟩ (byteAt bytes 2) (payloadOf bytes)
  else .frameDiscarded

end Sys2Proof.Machine
end

