-- ==== Sys2Proof/Safety.lean ====
section
/-! DEFINITION. What a claim about the machine is stated with: the conditions under which a frame reaches its block, and
the invariants of the state that the spec's rules promise. -/
namespace Sys2Proof.Machine

/-! ### When a frame reaches its block -/

/-- The part hears frames (R175, step 4). -/
abbrev hears (s : State) : Prop := s.control.phase = .hearing

/-- A frame is from another station than this one (R155). -/
abbrev fromOther (h : Header) (s : State) : Prop := sourceOf h ≠ s.control.number

/-- A frame of a cue-station kind is taken: the part hears, the source is the cue station and not the station itself, and
the destination is the station's number or 30 (R142). -/
abbrev takenFromCue (h : Header) (s : State) : Prop :=
  hears s ∧ fromOther h s ∧ sourceOf h = cueStation ∧ addressed h s = true

/-- The header of a command that is a frame heard (R142). -/
def frameHeader : Instr → Option Header
  | .frameHeardNotTaken h => some h
  | .cue h _ => some h
  | .take h _ => some h
  | .groupTake h _ => some h
  | .cancel h _ => some h
  | .cancelAll h => some h
  | .hold h => some h
  | .resume h => some h
  | .storeShot h _ _ => some h
  | .captureShot h _ _ => some h
  | .eraseShot h _ => some h
  | .readShot h _ _ => some h
  | .clearFaults h _ => some h
  | .forgetPeer h _ => some h
  | .online h => some h
  | .restart h => some h
  | .tally h _ => some h
  | .stateFrame h _ => some h
  | .ready h _ => some h
  | _ => none

/-- A frame of a cue-station kind (R142). -/
def fromCueStationKind (c : Instr) : Bool :=
  match c with
  | .frameHeardNotTaken _ => false
  | .tally _ _ => false
  | .stateFrame _ _ => false
  | .ready _ _ => false
  | c => (frameHeader c).isSome

/-- A request that the cue list, the profile generator or the shot store takes while ACTIVE or FAULT_STOP only (R18, R34,
R121). -/
def onBusRequest : Instr → Bool
  | .cue _ _ => true
  | .take _ _ => true
  | .groupTake _ _ => true
  | .cancel _ _ => true
  | .cancelAll _ => true
  | .hold _ => true
  | .resume _ => true
  | .storeShot _ _ _ => true
  | .captureShot _ _ _ => true
  | .eraseShot _ _ => true
  | .readShot _ _ _ => true
  | _ => false

/-! ### What planning and starting make of an entry -/

/-- A route candidate is the first free one of a plan (R63, R75). -/
def firstFree (p : Plan) (obs : List Rect) (i : Nat) (r : Route) : Prop :=
  p.candidates[i]? = some r ∧ routeFree p obs r = true ∧
    ∀ j < i, ∀ q, p.candidates[j]? = some q → routeFree p obs q = false

/-- No candidate of a plan is free (R76). -/
def allBlocked (p : Plan) (obs : List Rect) : Prop := ∀ r ∈ p.candidates, routeFree p obs r = false

/-- The entry past its planning read with a free route: CLAIMING, or CLAIMED when the route has no legs (R62, R75). -/
def stagedEntry (e : CueEntry) (c : ShotContent) (p : Plan) (i : Nat) (r : Route) : CueEntry :=
  { e with
    copy := some c, plan := some { p with chosen := some i }, stage := if r.legs = [] then .claimed else .claiming }

/-- The entry past its planning read with no free route (R62, R76). -/
def blockedEntry (e : CueEntry) (c : ShotContent) (p : Plan) : CueEntry :=
  { e with copy := some c, plan := some p, stage := .routing }

/-- The entry whose pre-plan is discarded (R48). -/
def discardedEntry (e : CueEntry) : CueEntry :=
  if e.stage = .queued then e else { e with copy := none, plan := none, retry := 0, stage := .queued }

/-- The profile generator at the start of a plan: profile time 0, the rate at its target, which is 0 under a hold, L on air
for a shot that is not live-permitted, else 256 (R115, R118). -/
def startedProfile (s : State) (onAir : Bool) (c : ShotContent) (p : Plan) : Profile :=
  { s.profile with
    motion := if s.profile.hold then .held else .running
    plan := some ⟨p, chosenRoute p, p.common.getD p.duration, c.livePermitted⟩
    time := 0
    rate :=
      if s.profile.hold then 0
      else if onAir && !c.livePermitted then (configOf s).liveRate
      else 256
    stopKind := none
    leg1Passed := false }

/-- The blanking windows freshly restarted (R128). -/
def freshWindow (s : State) : Option Nat := if (configOf s).blanking = 0 then none else some (configOf s).blanking

/-- PARKED at a set of positions (R12). -/
def parkedAt (s : State) (p : PerAxis Position) : OwnClaim :=
  ⟨⟨footprint (configOf s).halfWidth (floorPoint p), .parked, .held⟩, 0⟩

/-- The second entry's rectangles relabelled LEG (R88). -/
def relabelled (s : State) : List OwnClaim :=
  (s.claims.own.filter fun o => o.claim.kind == .nextLeg).map fun o => { o with claim := { o.claim with kind := .leg } }

/-- The axes whose wanted position lies outside the soft limits, in axis order (R15). -/
def limitAxes (s : State) (starts : PerAxis Position) (c : ShotContent) : List Axis :=
  Axis.all.filter fun a =>
    let l := (configOf s).axes.get a
    let wanted := (c.targets.get a).getD (starts.get a)
    decide (wanted.toNat < l.softMin.toNat ∨ l.softMax.toNat < wanted.toNat)

/-- The flags of a class after a number of raises (R163, R164). -/
def flagsAfterRaises (n : Nat) (f : FaultFlags) : FaultFlags :=
  if n = 0 then f else ⟨true, f.sticky || decide (2 ≤ n)⟩

/-- The report of the first raise of a run of raises, one for each name (R164, R165). -/
def firstReport (s : State) (c : FaultClass) (names : List FaultName) : List Report :=
  if (s.faults.get c).sticky || (settingOf s c).masked then [] else (names.take 1).map (.fault c)

/-- What placing a withdrawal for a group makes of the READY FIFO (R102): it takes the place of the group's first readiness
that is not in transmission; with none there it joins the end, the group's readiness in transmission being marked; and a full
FIFO first discards its oldest withdrawal that is not in transmission. -/
def withdrawalPlaced (group tag : Byte) (s t : State) : Prop :=
  ∀ sent later : List QueuedReady, s.bus.readyFifo = sent ++ later → sent.length = readySent s →
    let own := fun q : QueuedReady => q.group = group ∧ q.withdrawn = false
    let marked := sent.map fun q => if own q then { q with orphan := true } else q
    let withdrawal : QueuedReady := ⟨group, tag, 0, 0, true, false⟩
    (∀ before q after, later = before ++ q :: after → (∀ x ∈ before, ¬own x) → own q →
      t.bus.readyFifo = sent ++ before ++ withdrawal :: after) ∧
    ((∀ q ∈ later, ¬own q) →
      (s.bus.readyFifo.length < 4 → t.bus.readyFifo = marked ++ later ++ [withdrawal]) ∧
      ∀ kept w after, later = kept ++ w :: after → s.bus.readyFifo.length = 4 →
        (∀ q ∈ kept, q.withdrawn = false) → w.withdrawn = true →
        t.bus.readyFifo = marked ++ kept ++ after ++ [withdrawal])

/-- What an entry that is cancelled in GROUP_WAIT leaves of its group (R39, R105, R108, R109): the group wait and start delay
timers stopped, and a withdrawal placed while the record is COLLECTING, else none. -/
def leavesGroupWait (r : GroupRecord) (tag : Byte) (s t : State) : Prop :=
  t.groups.waitTimer = false ∧ t.groups.startDelay = none ∧
    (r.state = .collecting → withdrawalPlaced r.group tag s t) ∧
    (r.state ≠ .collecting → t.bus.readyFifo = s.bus.readyFifo)

/-- What the cancel of an entry whose move is not running has made of the machine before the place it left is filled: the
entry gone from the list, reported, with the rectangles of its kind, its group record and what it had in its group, its claim
timers stopped when it was past QUEUED, and the rest kept; no peer is known (R39, R109). -/
def entryCancelled (e : CueEntry) (kind : ClaimKind) (left : List CueEntry) (s u : State) : Prop :=
  u.cues = left ∧ u.claims.own = s.claims.own.filter (fun o => o.claim.kind != kind) ∧
    u.claims.overlap = s.claims.overlap ∧
    (e.stage ≠ .queued → u.claims.settleTimer = false ∧ u.claims.claimWaitTimer = false) ∧
    (e.stage = .queued →
      u.claims.settleTimer = s.claims.settleTimer ∧ u.claims.claimWaitTimer = s.claims.claimWaitTimer) ∧
    (s.bus.reportFifo.length < 8 → u.bus.reportFifo = s.bus.reportFifo ++ [.cue e.tag .cancelled]) ∧
    u.groups.records = (s.groups.records.filter fun r => decide (e.group ≠ some r.group)) ∧
    (e.stage ≠ .groupWait ∨ e.group = none →
      u.groups.waitTimer = s.groups.waitTimer ∧ u.groups.startDelay = s.groups.startDelay ∧
      u.bus.readyFifo = s.bus.readyFifo) ∧
    (∀ r, e.stage = .groupWait → e.group = some r.group → groupRecord r.group s = some r →
      leavesGroupWait r e.tag s u) ∧
    u.control = s.control ∧ u.profile = s.profile ∧ u.port = s.port ∧ u.store = s.store ∧ u.faults = s.faults ∧
    u.tally = s.tally ∧ u.peers = s.peers

/-- What the planning read of a QUEUED entry that has become head (`kind` LEG) or second (`kind` NEXT_LEG) makes of the machine
`u` that the event has left so far, in ACTIVE and with every wanted position within the limits: its record in writing, it
waits; EMPTY, or with a move of more than 65,535 ms, it fails (stated for the last entry of the list); else it is planned from
the given starts and its route tested. A taken head of a shot not live-permitted is deferred on air. What a taken head does
that is CLAIMED at once is not said here (R28, R42, R45, R46, R61, R75 to R77, R137). -/
def planningMakes (starts : PerAxis Position) (kind : ClaimKind) (before : List CueEntry) (f : CueEntry)
    (more : List CueEntry) (u t : State) : Prop :=
  let kept := t.control = u.control ∧ t.profile = u.profile ∧ t.port = u.port ∧ t.store = u.store ∧
    t.faults = u.faults ∧ t.tally = u.tally ∧ t.peers = u.peers ∧ t.bus.readyFifo = u.bus.readyFifo
  let fails := fun o : Reason =>
    more = [] → kept ∧ t.cues = before ∧
      t.claims = { u.claims with own := u.claims.own.filter fun o => o.claim.kind != kind } ∧
      t.groups = { u.groups with records := u.groups.records.filter fun r => decide (f.group ≠ some r.group) } ∧
      (u.bus.reportFifo.length < 8 → t.bus.reportFifo = u.bus.reportFifo ++ [.cue f.tag (.failed o)])
  (writing u.store f.shot = true →
    kept ∧ t.cues = before ++ f :: more ∧ t.claims = u.claims ∧ t.groups = u.groups ∧
      t.bus.reportFifo = u.bus.reportFifo) ∧
  (writing u.store f.shot = false → f.shot ≤ 127 →
    (recordOf u.store f.shot = .empty → fails .badShot) ∧
    ∀ c, recordOf u.store f.shot = .valid c → limitAxes u starts c = [] →
      let plan := buildPlan (configOf u) starts c
      let defers := kind == .leg && f.take && u.tally.onAir && !c.livePermitted
      let told := fun e : CueEntry => { e with deferralReported := f.deferralReported || defers }
      let stays := fun (e : CueEntry) (legs : List Leg) (waits : Bool) =>
        kept ∧ t.cues = before ++ told e :: more ∧ t.groups = u.groups ∧
          t.claims = { u.claims with
            own := u.claims.own ++ pendingClaims kind ⟨f.priority, f.retry⟩ legs
            claimWaitTimer := u.claims.claimWaitTimer || (waits && decide ((configOf u).claimWait ≠ .never)) } ∧
          (u.bus.reportFifo.length < 8 →
            t.bus.reportFifo =
              u.bus.reportFifo ++ if defers && !f.deferralReported then [.cue f.tag .deferred] else [])
      (65535 < plan.duration → fails .planRange) ∧
      (plan.duration ≤ 65535 →
        (allBlocked plan (obstacles u) → stays (blockedEntry f c plan) [] true) ∧
        ∀ i r, firstFree plan (obstacles u) i r → r.legs ≠ [] ∨ kind = .nextLeg ∨ f.take = false ∨ defers = true →
          stays (stagedEntry f c plan i r) r.legs (decide (r.legs ≠ []))))

/-- The own rectangles of a kind made HELD and the claim timers stopped (R81). -/
def settledClaims (kind : ClaimKind) (s : State) : ClaimManager :=
  { s.claims with
    own := s.claims.own.map fun o =>
      if o.claim.kind = kind then { o with claim := { o.claim with state := .held } } else o
    settleTimer := false
    claimWaitTimer := false }

/-! ### Invariants -/

/-- The capacities of the lists and counters (R26, R32, R97, R102, R145, R153). -/
def withinCapacity (s : State) : Prop :=
  s.cues.length ≤ 8 ∧ s.groups.records.length ≤ 4 ∧ s.bus.readyFifo.length ≤ 4 ∧ s.bus.reportFifo.length ≤ 8 ∧
    s.bus.cursor.remaining ≤ 8 ∧ s.bus.abandonCount ≤ 15

/-- No two entries carry the same cue tag, and no two group records the same group id (R32, R97). -/
def distinctNames (s : State) : Prop :=
  (s.cues.map CueEntry.tag).Nodup ∧ (s.groups.records.map GroupRecord.group).Nodup

/-- The live rate in use is at most 256 (R177), the time-base rate stays within 0 to 256, and no retry count passes 15
(R31, R112). -/
def rateInRange (s : State) : Prop :=
  (configOf s).liveRate ≤ 256 ∧ s.profile.rate ≤ 256 ∧ ∀ e ∈ s.cues, e.retry ≤ 15

/-- A recur flag is set only while its sticky flag is set (R163). -/
def recurWithinSticky (s : State) : Prop :=
  ∀ c : FaultClass, (s.faults.get c).recur = true → (s.faults.get c).sticky = true

/-- The shot store's memory is in its canonical form, and a write in flight names a record number. -/
def storeSound (s : State) : Prop :=
  Areas.wf s.store.areas = true ∧ ∀ w, s.store.write = some w → w.shot ≤ lastShot

/-- The STATE marker stays clear while the station is OFFLINE or JOINING (R148). -/
def markerOnlyOnBus (s : State) : Prop := onBus s = false → s.bus.stateMarker = false

/-- Drive enable as R130 gives it: deasserted before hearing and in OFFLINE, asserted in JOINING and ACTIVE; before hearing
the station is OFFLINE once the start sequence has begun (R174, R175). -/
def driveEnableRight (s : State) : Prop :=
  match s.control.phase with
  | .unpowered => s.control.driveEnable = false
  | .heldInReset => s.control.driveEnable = false
  | .readingConfiguration => s.control.station = .offline ∧ s.control.driveEnable = false
  | .checkingStore => s.control.station = .offline ∧ s.control.driveEnable = false
  | .hearing =>
    match s.control.station with
    | .offline => s.control.driveEnable = false
    | .joining => s.control.driveEnable = true
    | .active => s.control.driveEnable = true
    | .faultStop => True

/-- The reset pin's level agrees with the phase: held asserted exactly in reset while the supply is valid (R175). -/
def resetPinRight (s : State) : Prop :=
  s.control.phase ≠ .unpowered → (s.control.resetPin = true ↔ s.control.phase = .heldInReset)

/-- The join timer runs in JOINING only, and the servo period timer exactly while the station hears and is not OFFLINE (R5,
R174, R180). -/
def stationTimersRight (s : State) : Prop :=
  (s.control.joinTimer = true → hears s ∧ s.control.station = .joining) ∧
    (s.port.servoTimer = true ↔ hears s ∧ s.control.station ≠ .offline)

/-- The status pins as R184 gives them: all deasserted without a supply and in reset, and, once the part hears, ONLINE
asserted exactly while the station is not OFFLINE, FAULT exactly in FAULT_STOP, CONFIG_BAD exactly without a valid
configuration, ID_CONFLICT exactly with the identity conflict. -/
def statusPinsRight (s : State) : Prop :=
  let pins := (s.control.onlinePin, s.control.faultPin, s.control.configBadPin, s.control.idConflictPin)
  match s.control.phase with
  | .unpowered => pins = (false, false, false, false)
  | .heldInReset => pins = (false, false, false, false)
  | .readingConfiguration => pins = (false, false, false, false) ∧ s.control.identityConflict = false
  | .checkingStore => pins = (false, false, s.control.config.isNone, false) ∧ s.control.identityConflict = false
  | .hearing =>
    pins = (decide (s.control.station ≠ .offline), decide (s.control.station = .faultStop), s.control.config.isNone,
      s.control.identityConflict)

/-- The peer table: at most 15 entries in ascending order of their numbers, so one for each, pedestals other than the station
itself, each with at most 4 rectangles; none while the station's own number is no pedestal's or the start sequence has not
reached hearing (R156, R160). -/
def peersRight (s : State) : Prop :=
  s.peers.length ≤ 15 ∧ (s.peers.map PeerEntry.number).Pairwise (· < ·) ∧
    (∀ p ∈ s.peers, isPedestal p.number = true ∧ p.number ≠ s.control.number ∧ p.claims.length ≤ 4) ∧
    (isPedestal s.control.number = false → s.peers = []) ∧
    (s.control.phase = .readingConfiguration ∨ s.control.phase = .checkingStore → s.peers = [])

/-! ### How list, plans, groups, motion and claims agree -/

/-- A cell lies in a rectangle (R13). -/
def Rect.holds (r : Rect) (x y : Nat) : Prop := r.x0 ≤ x ∧ x ≤ r.x1 ∧ r.y0 ≤ y ∧ y ≤ r.y1

/-- The legs of an entry's chosen route. -/
def entryLegs (e : CueEntry) : List Leg := ((e.plan.map chosenRoute).map Route.legs).getD []

/-- The HELD rectangles of a route's legs, numbered in leg order (R70, R81). -/
def heldLegs (kind : ClaimKind) (legs : List Leg) : List OwnClaim :=
  legs.zipIdx.map fun (l, i) => ⟨⟨l.rect, kind, .held⟩, i + 1⟩

/-- The rectangles an entry owns by its stage (R70). -/
def stageClaims (kind : ClaimKind) (e : CueEntry) : List OwnClaim :=
  match e.stage with
  | .queued => []
  | .routing => []
  | .claiming => pendingClaims kind ⟨e.priority, e.retry⟩ (entryLegs e)
  | .claimed => heldLegs kind (entryLegs e)
  | .groupWait => heldLegs kind (entryLegs e)
  | .running => heldLegs kind (entryLegs e)

/-- The own claim set by the table of R70: PARKED, unless a move with legs runs, then the head's LEG rectangles, that of leg 1
until its end, then the second entry's NEXT_LEG rectangles; none outside ACTIVE and FAULT_STOP. -/
def expectedClaims (s : State) : List OwnClaim :=
  if onBus s then
    match s.cues with
    | [] => [parkedClaim s]
    | e :: rest =>
      (if e.stage = .running ∧ entryLegs e ≠ [] then [] else [parkedClaim s]) ++
        ((stageClaims .leg e).filter fun o => !(s.profile.leg1Passed && o.leg == 1)) ++
        (match rest with
          | [] => []
          | f :: _ => stageClaims .nextLeg f)
  else []

/-- Stages by place (R33), and no list, group, READY frame, claim or move outside ACTIVE and FAULT_STOP; a GROUP entry is one
with a group id, and a move exists exactly while the head is RUNNING. -/
def stagesByPlace (s : State) : Prop :=
  (onBus s = false →
    s.cues = [] ∧ s.groups.records = [] ∧ s.bus.readyFifo = [] ∧ s.claims.own = [] ∧ s.profile.motion = .idle) ∧
  (∀ (k : Nat) (e : CueEntry), s.cues[k]? = some e →
    (e.stage = .groupWait ∨ e.stage = .running → k = 0) ∧
    (e.stage ≠ .queued → k = 0 ∨ (k = 1 ∧ headRunning s = true)) ∧
    (e.mode = .group ↔ e.group ≠ none) ∧ (e.stage = .groupWait → e.mode = .group)) ∧
  (s.profile.motion ≠ .idle ↔ headRunning s = true)

/-- A plan is what the planner builds from its own start and a shot copy, with a candidate chosen, or none, and re-split to a
common N, or not (R62 to R64). -/
def planFrom (cfg : Configuration) (c : ShotContent) (p : Plan) : Prop :=
  let built := { buildPlan cfg p.start c with chosen := p.chosen }
  p = match p.common with
    | none => built
    | some n => resplit built n

/-- Copies and plans by stage (R31, R42, R46, R62): none while QUEUED, afterwards a plan within range with a route chosen
exactly past ROUTING; a waiting head's plan starts at the last setpoints, the second entry's at the head's targets; only a
head in GROUP_WAIT or RUNNING has a common N, at least its own. -/
def plansByStage (s : State) : Prop :=
  ∀ (k : Nat) (e : CueEntry), s.cues[k]? = some e →
    (e.stage = .queued → e.copy = none ∧ e.plan = none) ∧
    (e.stage ≠ .queued →
      ∃ c p, e.copy = some c ∧ e.plan = some p ∧ planFrom (configOf s) c p ∧ p.duration ≤ maxDuration ∧
        (e.stage = .routing → p.chosen = none) ∧
        (e.stage ≠ .routing → ∃ i < p.candidates.length, p.chosen = some i) ∧
        (e.stage = .claiming → entryLegs e ≠ []) ∧
        (k = 0 → e.stage ≠ .running → p.start = s.port.lastSetpoint) ∧
        (k = 1 → ∃ h q, s.cues[0]? = some h ∧ h.plan = some q ∧ p.start = q.target) ∧
        ∀ n, p.common = some n → (e.stage = .groupWait ∨ e.stage = .running) ∧ p.duration ≤ n)

/-- The head is in GROUP_WAIT with a group id. -/
def waitsInGroup (g : Byte) (s : State) : Prop :=
  ∃ e, s.cues.head? = some e ∧ e.stage = .groupWait ∧ e.group = some g

/-- The own N of the head's plan. -/
def headDuration (s : State) : Nat := (s.cues.head?.map ownDuration).getD 0

/-- The readiness in the READY FIFO that some record may still take (R102, R103). -/
def liveReadiness (s : State) : List QueuedReady := s.bus.readyFifo.filter fun q => !q.withdrawn && !q.orphan

/-- Group records, the group wait timer and the READY FIFO agree with the list (R97, R101 to R105): distinct ids, a record for
each GROUP entry, COLLECTING before GROUP_WAIT, not ENDED in it and ENDED for a RUNNING head, with a slot for this station; a
COLLECTING record's own slot is recorded, and a readiness that is not an orphan is queued, only while the head waits in its
group, one or the other and with its own N; the group wait timer runs only while the head waits in a COLLECTING group; a READY
frame in transmission is the READY FIFO's head, and no other frame of it is an orphan. -/
def groupsAgree (s : State) : Prop :=
  (s.groups.records.map GroupRecord.group).Nodup ∧ (s.cues.filterMap CueEntry.group).Nodup ∧
  (∀ e ∈ s.cues, ∀ g, e.group = some g →
    ∃ r ∈ s.groups.records, r.group = g ∧
      match e.stage with
      | .running => r.state = .ended
      | .groupWait => r.state ≠ .ended
      | .queued => r.state = .collecting
      | .routing => r.state = .collecting
      | .claiming => r.state = .collecting
      | .claimed => r.state = .collecting) ∧
  (∀ r ∈ s.groups.records,
    (∃ m ∈ r.slots, m.number = s.control.number) ∧
    (r.state = .collecting → ∀ m ∈ r.slots, m.number = s.control.number → ∀ n g, m.ready = some (n, g) →
      waitsInGroup r.group s ∧ n = headDuration s)) ∧
  (s.groups.waitTimer = true → ∃ r ∈ s.groups.records, r.state = .collecting ∧ waitsInGroup r.group s) ∧
  (liveReadiness s).length ≤ 1 ∧
  (∀ q ∈ liveReadiness s, waitsInGroup q.group s ∧ q.duration = headDuration s ∧
    ∃ r ∈ s.groups.records, r.group = q.group ∧ r.state = .collecting ∧
      ∀ m ∈ r.slots, m.number = s.control.number → m.ready = none) ∧
  (∀ x r, s.bus.transmission = some x → x.frame = .ready r →
    r.orphan = false ∧ ∃ q, s.bus.readyFifo.head? = some q ∧ { q with orphan := false } = r) ∧
  ∀ q ∈ s.bus.readyFifo.drop (readySent s), q.orphan = false

/-- The running plan is the head's, its profile time lies before the move's end and on the side of the leg-1 end that the
mark says, and the last setpoints are the plan's at that time; with no move there is no running plan (R68, R112, R119). -/
def moveAgrees (s : State) : Prop :=
  if s.profile.motion = .idle then s.profile.plan = none ∧ s.profile.leg1Passed = false
  else
    ∃ e c p, s.cues.head? = some e ∧ e.copy = some c ∧ e.plan = some p ∧
      let run := runningPlanOf p c.livePermitted
      s.profile.plan = some run ∧ s.profile.time < moveEnd run ∧ s.port.lastSetpoint = setpointsAt run s.profile.time ∧
        (if s.profile.leg1Passed then twoLegs run = true ∧ leg1End run ≤ s.profile.time
        else twoLegs run = true → s.profile.time < leg1End run)

/-- The overlap set: ascending, and exactly the peers that overlap (R84, R85). -/
def overlapRight (s : State) : Prop :=
  s.claims.overlap.Pairwise (· < ·) ∧
    ∀ n, n ∈ s.claims.overlap ↔ ∃ p ∈ s.peers, p.number = n ∧ peerOverlaps p s = true

/-- Every cell of the footprint at the floor setpoint lies in a HELD rectangle of the own claim set (R90). -/
def standsOnHeldFloor (s : State) : Prop :=
  ∀ x y, (footprint (configOf s).halfWidth (floorPoint s.port.lastSetpoint)).holds x y →
    ∃ o ∈ s.claims.own, o.claim.state = .held ∧ o.claim.rect.holds x y

/-- The floor agreement. Before hearing nothing is listed, claimed or queued; while the part hears, the list, plans, groups,
motion, claims and overlap set agree, an online station has a configuration that passed the check, its position read has
ended and an exchange is open, and the pedestal stands on floor it holds (R33, R70, R84, R90). -/
def floorAgreement (s : State) : Prop :=
  match s.control.phase with
  | .unpowered => True
  | .heldInReset => True
  | .readingConfiguration => startsEmpty s
  | .checkingStore => startsEmpty s
  | .hearing =>
    (∀ cfg, s.control.config = some cfg → ∃ number image, checkConfiguration number image = some cfg) ∧
    (s.control.station ≠ .offline →
      s.control.config ≠ none ∧ s.control.readEnded = true ∧ s.port.exchange ≠ none) ∧
    peersRight s ∧ stagesByPlace s ∧ plansByStage s ∧ groupsAgree s ∧ moveAgrees s ∧
    s.claims.own = expectedClaims s ∧ s.claims.own.length ≤ 4 ∧ overlapRight s ∧
    (onBus s = true → standsOnHeldFloor s)
where
  /-- Nothing is listed, claimed, queued or known of the peers while the start sequence has not reached hearing (R175). -/
  startsEmpty (s : State) : Prop :=
    s.control.station = .offline ∧ (∀ cfg, s.control.config = some cfg →
      ∃ number image, checkConfiguration number image = some cfg) ∧
    s.cues = [] ∧ s.peers = [] ∧ s.claims = State.reset.claims ∧ s.groups = State.reset.groups ∧
    s.profile.motion = .idle ∧ s.profile.plan = none ∧ s.profile.leg1Passed = false ∧ s.bus.readyFifo = [] ∧
    s.bus.transmission = none

end Sys2Proof.Machine
end

