-- ==== Sys2Proof/WellFormed.lean ====
section
/-! DEFINITION. Which commands stand for something that can arrive: the fixed lengths of chapter 12, and a pedestal number
that a peer entry can carry (R156). -/
namespace Sys2Proof

/-- A record body's label field has 16 bytes (chapter 12.4). -/
def RecordBody.wellFormed (b : RecordBody) : Bool := b.label.length == 16

/-- A STATE payload has four rectangle slots (chapter 12.3). -/
def StatePayload.wellFormed (p : StatePayload) : Bool := p.slots.length == 4

/-- The well-formed commands. -/
def Instr.wellFormed : Instr → Bool
  | .configurationCheck _ image => image.length == 105
  | .storeShot _ _ body => body.wellFormed
  | .captureShot _ _ label => label.length == 16
  | .stateFrame _ payload => payload.wellFormed
  | .peerAgeExpiry number => decide (1 ≤ number ∧ number ≤ 16)
  | .powerOn => true
  | .pinReset => true
  | .resetAsserted => true
  | .powerLoss => true
  | .configTransferAbandon => true
  | .startUpCheck => true
  | .positionReadInterval => true
  | .driveReply _ => true
  | .servoPeriodExpiry => true
  | .blankingWindowExpiry => true
  | .frameDiscarded => true
  | .duplicateStationEvent => true
  | .frameHeardNotTaken _ => true
  | .cue _ _ => true
  | .take _ _ => true
  | .groupTake _ _ => true
  | .cancel _ _ => true
  | .cancelAll _ => true
  | .hold _ => true
  | .resume _ => true
  | .eraseShot _ _ => true
  | .readShot _ _ _ => true
  | .writeCompletion _ => true
  | .clearFaults _ _ => true
  | .forgetPeer _ _ => true
  | .online _ => true
  | .restart _ => true
  | .tally _ _ => true
  | .ready _ _ => true
  | .transmissionStart _ => true
  | .transmissionCompletion => true
  | .abandon => true
  | .spentIdleExpiry => true
  | .settleExpiry => true
  | .claimWaitExpiry => true
  | .groupWaitExpiry => true
  | .startDelayExpiry => true
  | .tallyAgeExpiry => true
  | .heartbeatExpiry => true
  | .joinTimerExpiry => true

end Sys2Proof
end

