-- ==== Sys2Proof/Certificates/Slice0/Obligations.lean ====
section
/-! DEFINITION. The statements about the machine, one `Obligations.<Name> : Prop` each; the docstrings name the spec's
sections. -/
open Sys2Proof Sys2Proof.Machine

/-! ### The queue -/

/-- The command at the front of the queue takes effect on the state that holds the rest of the queue; an empty queue leaves
the state as it is (the model's choice, log 1). -/
def Obligations.StepRunsFrontCommand : Prop :=
  ∀ (c : Instr) (rest : List Instr) (s : State),
    step (s.withPending (c :: rest)) = exec c (s.withPending rest) ∧ step (s.withPending []) = .next (s.withPending [])

/-! ### Supply, reset and the start sequence (chapter 11, R25, R29) -/

/-- With no write in flight, POWER_ON with the reset pin released, and PIN_RESET while the supply is valid, leave the reset
state with the shot store's areas kept (R175, R30); the values of registers that the spec gives none for are the model's (log
4). Without a supply RESET_ASSERTED and PIN_RESET change the level of the reset pin and nothing else (the model's reading, log
3). -/
def Obligations.PowerOnClearsVolatileState : Prop :=
  ∀ s : State,
    let cleared := { State.reset with
      store := { State.reset.store with areas := s.store.areas }, free := s.free, pending := s.pending }
    (s.store.write = none →
      (s.control.resetPin = false → exec .powerOn s = .next cleared) ∧
      (s.control.phase ≠ .unpowered → exec .pinReset s = .next cleared)) ∧
    (s.control.phase = .unpowered →
      exec .resetAsserted s = .next { s with control := { s.control with resetPin := true } } ∧
      exec .pinReset s = .next { s with control := { s.control with resetPin := false } })

/-- RESET_ASSERTED with the supply valid, POWER_LOSS, and POWER_ON while the reset pin is held asserted end what is in
progress: no transmission, no move, no write, no pending RESTART, no output driven, nothing reported; the pin keeps its level,
asserted from RESET_ASSERTED on (R175, R184). What the other registers hold in reset and without a supply is the model's
reading (log 3): setpoints, cue list, fault set, peer table, corrupt marks and report FIFO keep their values, and the
heartbeat timer and the spent condition are cleared. -/
def Obligations.ResetAndPowerLossEndEverything : Prop :=
  ∀ (s : State) (c : Instr) (phase : Phase),
    (c = .resetAsserted ∧ s.control.phase ≠ .unpowered ∧ phase = .heldInReset) ∨ (c = .powerLoss ∧ phase = .unpowered) ∨
      (c = .powerOn ∧ s.control.resetPin = true ∧ phase = .heldInReset) →
    ∃ t, exec c s = .next t ∧
      t.control = { s.control with
        phase := phase, resetPin := s.control.resetPin || decide (c = .resetAsserted), joinTimer := false,
        restartPending := false, driveEnable := false, onlinePin := false, faultPin := false, configBadPin := false,
        idConflictPin := false } ∧
      t.bus = { s.bus with transmission := none, driverEnable := false, heartbeat := false, spent := false } ∧
      t.profile.motion = .idle ∧ t.profile.plan = none ∧ t.store.write = none ∧
      t.port.lastSetpoint = s.port.lastSetpoint ∧ t.port.servoTimer = false ∧ t.port.exchange = none ∧
      t.cues = s.cues ∧ t.faults = s.faults ∧ t.peers = s.peers ∧ t.store.corrupt = s.store.corrupt ∧
      (s.store.write = none → t.store.areas = s.store.areas)

/-- A write cut off by a power failure or an asserted reset pin leaves the record's area with its old content, its new
content or a mixture, and the other areas stay; nothing is reported (R25). That the mixture is made byte by byte is the
model's choice (log 6), and so is a write that a start alone cuts off (log 3). Every value of the free counter is allowed. -/
def Obligations.CutWriteLeavesMixture : Prop :=
  ∀ (s : State) (c : Instr) (w : WriteInFlight),
    s.store.write = some w → s.control.phase ≠ .unpowered →
    c = .powerOn ∨ c = .pinReset ∨ c = .resetAsserted ∨ c = .powerLoss →
    ∃ t, exec c s = .next t ∧ t.store.write = none ∧ t.bus.reportFifo.length ≤ s.bus.reportFifo.length ∧
      (∀ i < 44, byteAt (areaOf t.store.areas w.shot) i = byteAt (areaOf s.store.areas w.shot) i ∨
        byteAt (areaOf t.store.areas w.shot) i = byteAt (storedForm w.content) i) ∧
      ∀ n, n ≠ w.shot → areaOf t.store.areas n = areaOf s.store.areas n

/-- A transfer of the image abandoned is counted. With fewer than three abandons the configuration check holds the straps'
number, holds the image's values exactly when the check passes and asserts CONFIG_BAD exactly when it fails; after the third
the image is unreadable and the configuration invalid whatever the bytes are (R176, R177). -/
def Obligations.ConfigurationCheckHoldsValues : Prop :=
  ∀ (s : State) (straps : BitVec 5) (image : List Byte), s.control.phase = .readingConfiguration →
    (s.control.transferAbandons < 3 →
      exec .configTransferAbandon s =
        .next { s with control := { s.control with transferAbandons := s.control.transferAbandons + 1 } } ∧
      exec (.configurationCheck straps image) s =
        .next { s with
          control := { s.control with
            phase := .checkingStore
            number := straps.toNat
            config := checkConfiguration straps.toNat image
            configBadPin := (checkConfiguration straps.toNat image).isNone } }) ∧
    (3 ≤ s.control.transferAbandons →
      exec (.configurationCheck straps image) s =
        .next { s with
          control := { s.control with
            phase := .checkingStore, number := straps.toNat, config := none, configBadPin := true } })

/-- The configuration check passes exactly when every test of R177 holds of the number and of the image's bytes (R177, R188,
chapter 12.5). -/
def Obligations.ConfigurationValidExactlyByTests : Prop :=
  ∀ (number : Nat) (image : List Byte),
    (checkConfiguration number image).isSome = true ↔
      (1 ≤ number ∧ number ≤ 16) ∧ image.length = 105 ∧ word2 image 103 = crc16 (image.take 103) ∧
      (∀ a : Axis,
        (word3 image (12 * a.index)).toNat ≤ (word3 image (12 * a.index + 3)).toNat ∧
        (a = .x ∨ a = .y → (word3 image (12 * a.index + 3)).toNat ≤ 7999) ∧
        1 ≤ (word2 image (12 * a.index + 6)).toNat ∧ 1 ≤ (word2 image (12 * a.index + 8)).toNat ∧
        1 ≤ (word2 image (12 * a.index + 10)).toNat) ∧
      (100 ≤ (word2 image 84).toNat ∧ (word2 image 84).toNat ≤ 600) ∧
      (16 ≤ (word2 image 86).toNat ∧ (word2 image 86).toNat ≤ 256) ∧
      (1 ≤ (byteAt image 88).toNat ∧ (byteAt image 88).toNat ≤ 64) ∧
      (1 ≤ (byteAt image 89).toNat ∧ (byteAt image 89).toNat ≤ 128) ∧
      (byteAt image 91).toNat ≤ 4 ∧
      (100 ≤ (word2 image 92).toNat ∧ (word2 image 92).toNat ≤ 5000 ∧ (word2 image 92).toNat % 100 = 0) ∧
      (5 ≤ (byteAt image 94).toNat ∧ (byteAt image 94).toNat ≤ 50) ∧
      ∀ i, i < 7 → (byteAt image (95 + i)).toNat % 4 ≤ 1

/-- The start-up check marks exactly the records 0 to 127 whose area fails the tests, rewrites no area, raises STORE_CORRUPT
when one fails and its recur flag when a second one does, reports the lowest failing record when the class is unmasked and
was clear, and then hearing, the tally age timer and the start-up position read begin (R29, R175). -/
def Obligations.StartUpCheckMarksDamagedRecords : Prop :=
  ∀ s : State, s.control.phase = .checkingStore → s.control.station = .offline →
    ∃ t, exec .startUpCheck s = .next t ∧
      (∀ n, n ∈ t.store.corrupt ↔ n ≤ 127 ∧ areaSound (areaOf s.store.areas n) = false) ∧
      t.store.areas = s.store.areas ∧ t.control = { s.control with phase := .hearing } ∧
      t.tally = { s.tally with timer := true } ∧ t.port = { s.port with requests := Axis.all.map .read } ∧
      (∀ c, c ≠ .storeCorrupt → t.faults.get c = s.faults.get c) ∧
      (t.faults.get .storeCorrupt).sticky =
        ((s.faults.get .storeCorrupt).sticky || decide (1 ≤ t.store.corrupt.length)) ∧
      (s.faults.get .storeCorrupt = ⟨false, false⟩ →
        (t.faults.get .storeCorrupt).recur = decide (2 ≤ t.store.corrupt.length)) ∧
      (s.faults.get .storeCorrupt = ⟨false, false⟩ → (settingOf s .storeCorrupt).masked = false →
        s.bus.reportFifo = [] →
        t.bus.reportFifo = (t.store.corrupt.take 1).map fun n => Report.fault .storeCorrupt (.shot n))

/-! ### Drive link and servo period (chapters 1 and 7) -/

/-- In the start-up position read, at the end of each 1 ms a read request goes again to every drive not yet answered, in axis
order. An answer sets the axis's last setpoint, last actual position and drive status, the other axes keep theirs, no fault
is raised and nothing reported. With another axis still unanswered the read goes on; at the last answer it ends, and the
station enters JOINING exactly when it is OFFLINE with a valid configuration, auto-online set and the identity conflict
clear (R4, R9, R178). -/
def Obligations.PositionReadAsksUntilAnswered : Prop :=
  ∀ (s : State), hears s → s.control.readEnded = false →
    exec .positionReadInterval s =
      .next { s with
        port := { s.port with requests := (Axis.all.filter fun a => !s.port.answered.get a).map .read } } ∧
    ∀ (r : DriveReply) (a : Axis), s.port.exchange = none → r.check = replyCheck r → r.index.toNat = a.index →
      r.status = 0x00 ∨ r.status = 0x01 → s.port.answered.get a = false →
      ∃ t, exec (.driveReply r) s = .next t ∧
        t.port.lastSetpoint = s.port.lastSetpoint.set a r.position ∧
        t.port.lastActual = s.port.lastActual.set a r.position ∧
        t.port.driveStatus.get a = (if r.status = 0x01 then .fault else .ok) ∧
        (∀ b, b ≠ a → t.port.driveStatus.get b = s.port.driveStatus.get b) ∧
        t.faults = s.faults ∧ t.bus = s.bus ∧ t.cues = s.cues ∧ t.claims = s.claims ∧ t.profile = s.profile ∧
        t.store = s.store ∧ t.peers = s.peers ∧ t.tally = s.tally ∧ t.groups = s.groups ∧
        ((∃ b, b ≠ a ∧ s.port.answered.get b = false) → t.control = s.control) ∧
        ((∀ b, b ≠ a → s.port.answered.get b = true) →
          t.control.readEnded = true ∧
          (s.control.station = .offline →
            (t.control.station = .joining ↔
              (∃ c, s.control.config = some c ∧ c.autoOnline = true) ∧ s.control.identityConflict = false) ∧
            (t.control.station = .joining ∨ t.control.station = .offline)))

/-- A reply with a failing check word, with an axis index outside 0 to 6, for an axis already answered in the open exchange
or in the start-up position read, or outside any exchange after that read, is discarded (R4). -/
def Obligations.RepliesDiscarded : Prop :=
  ∀ (s : State) (r : DriveReply), hears s →
    r.check ≠ replyCheck r ∨ 6 < r.index.toNat ∨
      (∃ x a p, s.port.exchange = some x ∧ r.index.toNat = a.index ∧ x.replies.get a = some p) ∨
      (∃ a, s.port.exchange = none ∧ s.control.readEnded = false ∧ r.index.toNat = a.index ∧
        s.port.answered.get a = true) ∨
      (s.port.exchange = none ∧ s.control.readEnded = true) →
    exec (.driveReply r) s = .next s

/-- The first good reply of an axis in an open exchange, with no following error to raise (within E, or the blanking window
running, or drive enable deasserted), is recorded: with status OK nothing else changes; with status FAULT it is recorded as
FAULT and DRIVE_FAULT is raised naming the axis, reported first when the class was clear and the FIFO has room. That raise
puts an ACTIVE station into FAULT_STOP: the FAULT pin asserted, a move being stopped with kind FAULT, drive enable deasserted
with none, no entry left but a running head; in another state only flags change (R4, R6, R8, R50, R126, R162, R164, R166). -/
def Obligations.ReplyInExchangeIsRecorded : Prop :=
  ∀ (s : State) (r : DriveReply) (a : Axis) (x : Exchange),
    hears s → s.port.exchange = some x → x.replies.get a = none →
    r.check = replyCheck r → r.index.toNat = a.index →
    (followingError r.position (x.paired.get a) ≤ ((configOf s).axes.get a).error ∨
      (∃ n, s.port.blanking = some (n + 1)) ∨ s.control.driveEnable = false) →
    (r.status = 0x00 →
      exec (.driveReply r) s =
        .next { s with
          port := { s.port with
            lastActual := s.port.lastActual.set a r.position
            driveStatus := s.port.driveStatus.set a .ok
            exchange := some { x with replies := x.replies.set a (some r.position) } } }) ∧
    (r.status = 0x01 →
      ∃ t, exec (.driveReply r) s = .next t ∧
        t.port.lastActual = s.port.lastActual.set a r.position ∧
        t.port.driveStatus = s.port.driveStatus.set a .fault ∧
        t.port.exchange = some { x with replies := x.replies.set a (some r.position) } ∧
        t.port.lastSetpoint = s.port.lastSetpoint ∧ t.store = s.store ∧ t.peers = s.peers ∧ t.tally = s.tally ∧
        t.faults.get .driveFault = ⟨true, (s.faults.get .driveFault).sticky⟩ ∧
        (∀ c, c ≠ .driveFault → c ≠ .floorOverlap → t.faults.get c = s.faults.get c) ∧
        ((s.faults.get .driveFault).sticky = false → s.bus.reportFifo.length < 8 →
          (s.bus.reportFifo ++ [.fault .driveFault (.axis a)]) <+: t.bus.reportFifo) ∧
        (s.control.station = .active →
          t.control = { s.control with
            station := .faultStop
            faultPin := true
            driveEnable := s.control.driveEnable && decide (s.profile.motion ≠ .idle) } ∧
          t.profile.motion = (if s.profile.motion = .idle then .idle else .stopping) ∧
          t.profile.stopKind = (if s.profile.motion = .idle then s.profile.stopKind else some .fault) ∧
          (headRunning s = false → t.cues = []) ∧
          ∀ e rest, s.cues = e :: rest → e.stage = .running →
            t.cues = [{ e with ending := some (e.ending.getD (.failed .fault)) }]) ∧
        (s.control.station ≠ .active →
          t.control = s.control ∧ t.profile = s.profile ∧ t.cues = s.cues ∧ t.claims = s.claims ∧ t.groups = s.groups ∧
          t.faults.get .floorOverlap = s.faults.get .floorOverlap))

/-- A following error beyond E, with drive enable asserted and no blanking window running, raises FOLLOWING_ERROR: in ACTIVE
with the class at STOP severity the station enters FAULT_STOP with the FAULT pin asserted, a running or held move is being
stopped with kind FAULT under power, a running head keeps the head place with its ending set and every other entry leaves,
and with no move drive enable is deasserted; in JOINING and FAULT_STOP only flags change. The reply is recorded (R4, R50,
R126, R164, R166). -/
def Obligations.FollowingErrorStopsTheMove : Prop :=
  ∀ (s : State) (r : DriveReply) (a : Axis) (x : Exchange),
    hears s → s.port.exchange = some x → x.replies.get a = none →
    r.check = replyCheck r → r.index.toNat = a.index → r.status = 0x00 →
    ((configOf s).axes.get a).error < followingError r.position (x.paired.get a) →
    s.port.blanking = none → s.control.driveEnable = true → (settingOf s .followingError).severity = .stop →
    ∃ t, exec (.driveReply r) s = .next t ∧
      (t.faults.get .followingError).sticky = true ∧
      (t.faults.get .followingError).recur = (s.faults.get .followingError).sticky ∧
      t.port.lastSetpoint = s.port.lastSetpoint ∧ t.profile.time = s.profile.time ∧ t.profile.rate = s.profile.rate ∧
      t.port.lastActual = s.port.lastActual.set a r.position ∧ t.port.driveStatus = s.port.driveStatus.set a .ok ∧
      t.port.exchange = some { x with replies := x.replies.set a (some r.position) } ∧
      (s.control.station = .active →
        t.control.station = .faultStop ∧ t.control.faultPin = true ∧
        (headRunning s = false → t.cues = []) ∧
        (∀ e rest, s.cues = e :: rest → e.stage = .running →
          t.cues = [{ e with ending := some (e.ending.getD (.failed .fault)) }]) ∧
        (s.profile.motion = .idle → t.profile.motion = .idle ∧ t.control.driveEnable = false) ∧
        (s.profile.motion ≠ .idle →
          t.profile.motion = .stopping ∧ t.profile.stopKind = some .fault ∧ t.control.driveEnable = true)) ∧
      (s.control.station ≠ .active →
        t.control = s.control ∧ t.profile = s.profile ∧ t.cues = s.cues ∧ t.claims = s.claims)

/-- At a servo period expiry with no move and every axis answered, the last setpoints are sent again, the exchange is closed
and the next one opened with replies to be paired with the setpoints sent before; only the axis port changes (R5, R6, R114). -/
def Obligations.ServoPeriodWithoutMoveResendsSetpoints : Prop :=
  ∀ (s : State) (x : Exchange),
    hears s → s.port.servoTimer = true → s.profile.motion = .idle → s.port.exchange = some x →
    (∀ a, x.replies.get a ≠ none) →
    exec .servoPeriodExpiry s =
      .next { s with
        port := { s.port with
          blanking := (countBlanking s).port.blanking
          closed := some x
          exchange := some ⟨s.port.lastSetpoint, everyAxis none⟩
          requests := Axis.all.map fun a => .setpoint a (s.port.lastSetpoint.get a) } }

/-- At a servo period expiry an axis without a reply in the exchange that closes gets status FAULT and keeps its last actual
position, DRIVE_FAULT is set when there is such an axis, and an axis with a reply keeps its status (R7, R8). That the raise
comes after the profile generator's work, so that it stands when a RESTART that waited has cleared the fault set at this same
expiry, is the model's reading (log 10). -/
def Obligations.MissedReplyRaisesDriveFault : Prop :=
  ∀ (s : State) (x : Exchange),
    hears s → s.port.servoTimer = true → s.port.exchange = some x →
    ∃ t, exec .servoPeriodExpiry s = .next t ∧ t.port.lastActual = s.port.lastActual ∧
      (∀ a, t.port.driveStatus.get a = if x.replies.get a = none then .fault else s.port.driveStatus.get a) ∧
      ((∃ a, x.replies.get a = none) → (t.faults.get .driveFault).sticky = true) ∧
      (t.port.exchange.map Exchange.paired = some s.port.lastSetpoint)

/-- A servo period of a running move that neither passes the end of leg 1 nor ends the move: the rate takes one step toward
its target, profile time grows by the new rate, the seven setpoints are those of the plan at the new time and are sent, HELD
is entered exactly when the rate is 0 under a hold with no stop, and claims, list, reports and faults stay (R114 to R117,
R122). The exchange that closes has every reply. -/
def Obligations.ServoPeriodAdvancesTheMove : Prop :=
  ∀ (s : State) (x : Exchange) (p : RunningPlan),
    hears s → s.port.servoTimer = true → s.port.exchange = some x → (∀ a, x.replies.get a ≠ none) →
    s.profile.motion ≠ .idle → s.profile.plan = some p →
    let r := stepToward (rateStep s) (rateTarget s) s.profile.rate
    let time := s.profile.time + r
    (twoLegs p = true ∧ s.profile.leg1Passed = false → time < leg1End p) → time < moveEnd p →
    (s.profile.motion = .stopping → 0 < r) →
    ∃ t, exec .servoPeriodExpiry s = .next t ∧
      t.profile.rate = r ∧ t.profile.time = time ∧ t.profile.plan = some p ∧ t.profile.hold = s.profile.hold ∧
      t.profile.stopKind = s.profile.stopKind ∧ t.profile.leg1Passed = s.profile.leg1Passed ∧
      t.profile.motion =
        (if r = 0 ∧ s.profile.hold = true ∧ s.profile.motion ≠ .stopping then .held else s.profile.motion) ∧
      t.port.lastSetpoint = setpointsAt p time ∧
      t.port.exchange = some ⟨s.port.lastSetpoint, everyAxis none⟩ ∧ t.port.closed = some x ∧
      t.port.requests = (Axis.all.map fun a => .setpoint a (setpointAt p time a)) ∧
      t.cues = s.cues ∧ t.claims = s.claims ∧ t.groups = s.groups ∧ t.faults = s.faults ∧ t.store = s.store ∧
      t.peers = s.peers ∧ t.tally = s.tally ∧ t.control = s.control ∧ t.bus.reportFifo = s.bus.reportFifo

/-- The end of leg 1: profile time stops at M1 exactly, the corner's setpoints are handed, the mark is set, and the rectangle
of leg 1 leaves the own claim set. The move is not stopping, no peer's rectangle is known, and every reply has come (R87,
R117, R119). -/
def Obligations.EndOfLegOneReleasesItsRectangle : Prop :=
  ∀ (s : State) (x : Exchange) (p : RunningPlan),
    hears s → s.port.servoTimer = true → s.port.exchange = some x → (∀ a, x.replies.get a ≠ none) →
    s.profile.motion = .running → s.profile.plan = some p → s.peers = [] →
    twoLegs p = true → s.profile.leg1Passed = false → leg1End p < moveEnd p →
    leg1End p ≤ s.profile.time + stepToward (rateStep s) (rateTarget s) s.profile.rate →
    ∃ t, exec .servoPeriodExpiry s = .next t ∧
      t.profile.time = leg1End p ∧ t.profile.leg1Passed = true ∧ t.port.lastSetpoint = setpointsAt p (leg1End p) ∧
      t.claims.own = s.claims.own.filter (fun o => !(o.claim.kind == .leg && o.leg == 1)) ∧
      t.port.blanking = (if (configOf s).blanking = 0 then none else some (configOf s).blanking) ∧
      t.cues = s.cues ∧ t.groups = s.groups ∧ t.faults = s.faults ∧ t.bus.reportFifo = s.bus.reportFifo

/-- Completion, at the expiry at which profile time reaches M with no stop: the setpoints handed are those of the plan's end,
motion is IDLE with the rate kept, and the head leaves with COMPLETED. With one entry the own claim set is PARKED at the final
floor setpoint, and what there is of NEXT_LEG relabelled LEG. With a second entry, the promotion at the same event: past
QUEUED it keeps stage, plan and take flag, its rectangles relabelled; its deferral is reported once; CLAIMED with the take
flag it starts, or enters GROUP_WAIT; QUEUED it waits for a write, fails with BAD_SHOT, or is planned from the final setpoints
(R42, R43, R44, R45, R47, R88, R120). That the completion comes before the DRIVE_FAULT of an axis without a reply at this
expiry is the model's reading (log 10); the promotion is stated with every reply in and no peer known. -/
def Obligations.CompletionEndsTheMove : Prop :=
  ∀ (s : State) (p : RunningPlan) (e : CueEntry) (rest : List CueEntry),
    hears s → s.port.servoTimer = true → s.profile.motion = .running → s.profile.plan = some p → s.cues = e :: rest →
    (twoLegs p = true → s.profile.leg1Passed = true) →
    let r := stepToward (rateStep s) (rateTarget s) s.profile.rate
    moveEnd p ≤ s.profile.time + r → 0 < r →
    let final := setpointsAt p (moveEnd p)
    let done := s.bus.reportFifo ++ [.cue e.tag .completed]
    (rest = [] →
      ∃ t, exec .servoPeriodExpiry s = .next t ∧
        t.port.lastSetpoint = final ∧ t.profile.motion = .idle ∧ t.profile.plan = none ∧ t.profile.rate = r ∧
        t.cues = [] ∧ t.claims.own = parkedAt s final :: relabelled s ∧
        (∀ g, e.group = some g → ∀ q ∈ t.groups.records, q.group ≠ g) ∧
        (s.bus.reportFifo.length < 8 → done <+: t.bus.reportFifo)) ∧
    ∀ (x : Exchange) (f : CueEntry) (more : List CueEntry),
      rest = f :: more → s.port.exchange = some x → (∀ a, x.replies.get a ≠ none) → s.peers = [] →
      ∃ t, exec .servoPeriodExpiry s = .next t ∧ t.port.lastSetpoint = final ∧
        (∀ c q, f.stage = .routing ∨ f.stage = .claiming ∨ f.stage = .claimed → f.copy = some c → f.plan = some q →
          (f.take = false ∨ (f.stage ≠ .claimed ∧ (c.livePermitted = true ∨ s.tally.onAir = false)) →
            t.cues = f :: more ∧ t.claims.own = parkedAt s final :: relabelled s ∧ t.profile.motion = .idle ∧
            t.profile.rate = r ∧ (s.bus.reportFifo.length < 8 → t.bus.reportFifo = done)) ∧
          (f.take = true → c.livePermitted = false → s.tally.onAir = true →
            t.cues = { f with deferralReported := true } :: more ∧ t.profile.motion = .idle ∧
            t.claims.own = parkedAt s final :: relabelled s ∧
            (s.bus.reportFifo.length < 7 →
              t.bus.reportFifo = done ++ if f.deferralReported then [] else [.cue f.tag .deferred])) ∧
          (f.take = true → f.stage = .claimed → c.livePermitted = true ∨ s.tally.onAir = false →
            (f.mode ≠ .group → s.control.station = .active → s.control.restartPending = false → more = [] →
              (chosenRoute q).legs ≠ [] → 1 ≤ q.common.getD q.duration →
              t.cues = [{ f with stage := .running }] ∧ t.profile = startedProfile s s.tally.onAir c q ∧
              t.claims.own = relabelled s ∧ t.port.blanking = freshWindow s ∧
              (s.bus.reportFifo.length < 7 → t.bus.reportFifo = done ++ [.cue f.tag .started])) ∧
            (∀ g, f.mode = .group → f.group = some g → s.bus.readyFifo.length < 4 →
              t.cues = { f with stage := .groupWait } :: more ∧ t.groups.waitTimer = true ∧
              t.bus.readyFifo = s.bus.readyFifo ++ [⟨g, f.tag, q.duration, (configOf s).startDelay, false, false⟩] ∧
              t.profile.motion = .idle ∧ t.claims.own = parkedAt s final :: relabelled s ∧
              (s.bus.reportFifo.length < 8 → t.bus.reportFifo = done)))) ∧
        (f.stage = .queued →
          (s.control.station ≠ .active ∨ writing s.store f.shot = true →
            t.cues = f :: more ∧ t.claims.own = parkedAt s final :: relabelled s) ∧
          (s.control.station = .active → writing s.store f.shot = false → f.shot ≤ 127 →
            (recordOf s.store f.shot = .empty → more = [] →
              t.cues = [] ∧
              (s.bus.reportFifo.length < 7 →
                t.bus.reportFifo = done ++ [.cue f.tag (.failed .badShot)])) ∧
            (∀ c route, recordOf s.store f.shot = .valid c → limitAxes s final c = [] → f.take = false →
              let plan := buildPlan (configOf s) final c
              plan.duration ≤ 65535 → plan.candidates[0]? = some route →
              t.cues = stagedEntry f c plan 0 route :: more ∧
              t.claims.own =
                parkedAt s final :: relabelled s ++ pendingClaims .leg ⟨f.priority, f.retry⟩ route.legs ∧
              (s.bus.reportFifo.length < 8 → t.bus.reportFifo = done))))

/-- Stop completion: the setpoints stay at the profile time the stop reached. No RESTART waiting, no peer known and every
reply in: motion is IDLE with rate 0, the head leaves with its ending as its report, PARKED stands at the stop position, and
in FAULT_STOP the station returns to ACTIVE with drive enable asserted exactly when no STOP-severity flag is set, else drive
enable is deasserted. A second entry becomes head with its pre-plan discarded, its rectangles gone and its timers stopped:
while its record is written, or outside ACTIVE, it stays QUEUED; else it fails with BAD_SHOT or is planned again from the stop
position. A RESTART that waits takes effect at stop completion, whatever the list holds (R28, R48, R89, R125, R169, R182,
R183). That its rate is 0 whatever the list holds, since no promoted head, taken and without legs, starts at that event before
the effect, is the model's reading (log 15); that the cleared cursor, profile time and leg-1 mark are the reset state's is the
model's choice (log 4). -/
def Obligations.StopCompletionEndsTheMove : Prop :=
  ∀ (s : State) (x : Exchange) (p : RunningPlan),
    hears s → s.port.servoTimer = true → s.port.exchange = some x → (∀ a, x.replies.get a ≠ none) →
    s.profile.motion = .stopping → s.profile.plan = some p →
    (twoLegs p = true ∧ s.profile.leg1Passed = false → s.profile.time < leg1End p) →
    s.profile.time < moveEnd p → stepToward (rateStep s) (rateTarget s) s.profile.rate = 0 →
    let final := setpointsAt p s.profile.time
    (∀ (e : CueEntry) (rest : List CueEntry) (o : CueOutcome),
      s.cues = e :: rest → e.ending = some o → s.peers = [] → s.control.restartPending = false →
      let ended := s.bus.reportFifo ++ [.cue e.tag o]
      ∃ t, exec .servoPeriodExpiry s = .next t ∧ t.port.lastSetpoint = final ∧
        (rest = [] →
          t.profile.motion = .idle ∧ t.profile.plan = none ∧ t.profile.stopKind = none ∧ t.profile.rate = 0 ∧
          t.cues = [] ∧ t.claims.own = [parkedAt s final] ∧
          (s.bus.reportFifo.length < 8 → t.bus.reportFifo = ended) ∧ t.faults = s.faults ∧
          (s.control.station = .faultStop →
            (stopFlagSet s = true → t.control.station = .faultStop ∧ t.control.driveEnable = false) ∧
            (stopFlagSet s = false →
              t.control.station = .active ∧ t.control.driveEnable = true ∧ t.control.faultPin = false)) ∧
          (s.control.station ≠ .faultStop → t.control = s.control)) ∧
        ∀ f more, rest = f :: more →
          (f.stage ≠ .queued → t.claims.settleTimer = false) ∧
          (s.control.station ≠ .active ∨ writing s.store f.shot = true →
            t.cues = discardedEntry f :: more ∧ t.claims.own = [parkedAt s final] ∧ t.profile.motion = .idle ∧
            t.profile.rate = 0 ∧ (f.stage ≠ .queued → t.claims.claimWaitTimer = false) ∧
            (s.bus.reportFifo.length < 8 → t.bus.reportFifo = ended)) ∧
          (s.control.station = .active → writing s.store f.shot = false → f.shot ≤ 127 →
            (recordOf s.store f.shot = .empty → more = [] →
              t.cues = [] ∧ t.claims.own = [parkedAt s final] ∧ t.profile.motion = .idle ∧
              (s.bus.reportFifo.length < 7 →
                t.bus.reportFifo = ended ++ [.cue f.tag (.failed .badShot)])) ∧
            (∀ c route, recordOf s.store f.shot = .valid c → limitAxes s final c = [] → f.take = false →
              let plan := buildPlan (configOf s) final c
              plan.duration ≤ 65535 → plan.candidates[0]? = some route →
              t.cues = stagedEntry (discardedEntry f) c plan 0 route :: more ∧ t.profile.motion = .idle ∧
              t.claims.own =
                parkedAt s final :: pendingClaims .leg ⟨f.priority, (discardedEntry f).retry⟩ route.legs ∧
              (s.bus.reportFifo.length < 8 → t.bus.reportFifo = ended)))) ∧
    (s.control.restartPending = true →
      ∃ t, exec .servoPeriodExpiry s = .next t ∧ t.port.lastSetpoint = final ∧
        t.port.exchange = some ⟨s.port.lastSetpoint, everyAxis none⟩ ∧ t.port.servoTimer = true ∧
        t.control = { s.control with
          station := .joining, joinTimer := true, restartPending := false, driveEnable := true, faultPin := false } ∧
        t.bus = State.reset.bus ∧ t.peers = [] ∧ t.cues = [] ∧ t.claims = State.reset.claims ∧
        t.groups = State.reset.groups ∧ t.profile = { State.reset.profile with rate := 0 } ∧ t.faults = noFaults ∧
        t.store = s.store ∧ t.tally = s.tally)

/-- The blanking windows' expiry, taken after the servo period expiry (count 0, the exchange just closed) or before it (count
1, the exchange still open); the two orders and their counts are the model's choice (log 12). The windows are stopped, and
with every pair within E, or drive enable deasserted, nothing else changes. A pair beyond E with drive enable asserted sets
FOLLOWING_ERROR; the fault stop that this begins with a move under way restarts the windows with W, the expiry of this moment
not counted (R123, R128, R129). -/
def Obligations.BlankingExpiryChecksTheLatestPairs : Prop :=
  ∀ (s : State) (x : Exchange), hears s →
    (s.port.blanking = some 0 ∧ s.port.closed = some x) ∨ (s.port.blanking = some 1 ∧ s.port.exchange = some x) →
    ((s.control.driveEnable = false ∨
        ∀ a v, x.replies.get a = some v → followingError v (x.paired.get a) ≤ ((configOf s).axes.get a).error) →
      exec .blankingWindowExpiry s = .next { s with port := { s.port with blanking := none } }) ∧
    (s.control.driveEnable = true ∧
        (∃ a v, x.replies.get a = some v ∧ ((configOf s).axes.get a).error < followingError v (x.paired.get a)) →
      ∃ t, exec .blankingWindowExpiry s = .next t ∧ (t.faults.get .followingError).sticky = true ∧
        (s.control.station = .active → (settingOf s .followingError).severity = .stop →
          t.control.station = .faultStop ∧
          (s.profile.motion = .running → rateTarget s ≠ 0 →
            t.profile.motion = .stopping ∧
            t.port.blanking = (freshWindow s).map fun n => if s.port.blanking = some 1 then n + 1 else n)) ∧
        (s.control.station ≠ .active → t.port.blanking = none ∧ t.profile = s.profile))

/-! ### Frames heard (chapters 9 and 10) -/

/-- Frames that no block takes: one that is not heard changes nothing; a heard one that is not taken ends the spent condition
and changes nothing else: a kind without a taker, a wrong source or destination, a request of the cue list, the profile
generator or the shot store outside ACTIVE and FAULT_STOP, a TALLY from another source than 31, a STATE frame from a source
outside 1 to 16 or heard by a station outside 1 to 16, and a READY, readiness or withdrawal, for a group of which there is no
record, only one that is STARTING or ENDED, or one whose member set does not hold the source (R18, R34, R99, R100, R106, R121,
R133, R142, R152, R157). -/
def Obligations.FramesNotTakenOnlyEndSpent : Prop :=
  ∀ (s : State) (h : Header) (c : Instr), hears s → fromOther h s →
    exec .frameDiscarded s = .next s ∧ exec (.frameHeardNotTaken h) s = .next (endSpent s) ∧
    (fromCueStationKind c = true → frameHeader c = some h → sourceOf h ≠ 0 ∨ addressed h s = false →
      exec c s = .next (endSpent s)) ∧
    (onBusRequest c = true → frameHeader c = some h → s.control.station = .offline ∨ s.control.station = .joining →
      exec c s = .next (endSpent s)) ∧
    (∀ w, sourceOf h ≠ 31 → exec (.tally h w) s = .next (endSpent s)) ∧
    (∀ p, isPedestal (sourceOf h) = false ∨ isPedestal s.control.number = false →
      exec (.stateFrame h p) s = .next (endSpent s)) ∧
    ∀ p, (∀ r ∈ s.groups.records, r.group = p.group → r.state ≠ .collecting ∨ ∀ m ∈ r.slots, m.number ≠ sourceOf h) →
      exec (.ready h p) s = .next (endSpent s)

/-- Before hearing begins only the commands of supply, reset and the start sequence have an effect (R175; that the others
have none is the model's reading, log 3). -/
def Obligations.NothingElseHappensBeforeHearing : Prop :=
  ∀ (s : State) (c : Instr), ¬hears s →
    exec c s = .next s ∨ c = .powerOn ∨ c = .pinReset ∨ c = .resetAsserted ∨ c = .powerLoss ∨ c = .configTransferAbandon ∨
      (∃ straps image, c = .configurationCheck straps image) ∨ c = .startUpCheck

/-- A frame with the station's own number as source acts as a duplicate-station event. In OFFLINE and JOINING it sets the
identity conflict and its pin, and JOINING is left for OFFLINE; in ACTIVE it raises DUPLICATE_STATION and enters FAULT_STOP,
where no entry is left but a running head; in FAULT_STOP it only sets flags and reports (R155, R164, R166, R181). -/
def Obligations.DuplicateStationEventByState : Prop :=
  ∀ s : State, hears s →
    (∀ c h, frameHeader c = some h → sourceOf h = s.control.number → exec c s = exec .duplicateStationEvent s) ∧
    (s.control.station = .offline →
      exec .duplicateStationEvent s =
        .next { s with
          control := { s.control with identityConflict := true, idConflictPin := true }
          bus := { s.bus with spent := false } }) ∧
    (s.control.station = .joining →
      exec .duplicateStationEvent s =
        .next { s with
          control := { s.control with
            station := .offline, identityConflict := true, idConflictPin := true, joinTimer := false,
            driveEnable := false, onlinePin := false }
          port := { s.port with servoTimer := false, exchange := none }
          bus := { s.bus with spent := false, stateMarker := false, heartbeat := false } }) ∧
    (s.control.station = .faultStop →
      ∃ t, exec .duplicateStationEvent s = .next t ∧ t.control = s.control ∧ t.cues = s.cues ∧ t.claims = s.claims ∧
        t.profile = s.profile ∧ t.port = s.port ∧ t.store = s.store ∧ t.groups = s.groups ∧ t.peers = s.peers ∧
        t.faults.get .duplicateStation = ⟨true, (s.faults.get .duplicateStation).sticky⟩ ∧
        (s.bus.reportFifo.length < 8 → (s.faults.get .duplicateStation).sticky = false →
          t.bus.reportFifo = s.bus.reportFifo ++ [.fault .duplicateStation .nothing])) ∧
    (s.control.station = .active →
      ∃ t, exec .duplicateStationEvent s = .next t ∧
        t.control = { s.control with
          station := .faultStop
          faultPin := true
          driveEnable := s.control.driveEnable && decide (s.profile.motion ≠ .idle) } ∧
        t.faults.get .duplicateStation = ⟨true, (s.faults.get .duplicateStation).sticky⟩ ∧
        t.profile.motion = (if s.profile.motion = .idle then .idle else .stopping) ∧
        t.profile.stopKind = (if s.profile.motion = .idle then s.profile.stopKind else some .fault) ∧
        t.bus.stateMarker = true ∧ t.port.lastSetpoint = s.port.lastSetpoint ∧ t.store = s.store ∧ t.peers = s.peers ∧
        (headRunning s = false → t.cues = []) ∧
        ∀ e rest, s.cues = e :: rest → e.stage = .running →
          t.cues = [{ e with ending := some (e.ending.getD (.failed .fault)) }])

/-! ### The cue list (chapter 3) -/

/-- A CUE is refused with the reason of its first failing test, in the order of R35; in FAULT_STOP with NOT_ACTIVE (R34,
R35). Nothing else changes but the spent condition. -/
def Obligations.CueRefusedByFirstFailingTest : Prop :=
  ∀ (s : State) (h : Header) (p : CuePayload) (mode : StartMode) (r : Reason),
    takenFromCue h s → cueStartMode p.mode = some mode →
    let duplicate := ∃ e ∈ s.cues, e.tag = p.tag
    let full := 8 ≤ s.cues.length
    let range := 127 < p.shot.toNat
    let noMember := mode = .group ∧ (p.group = 0 ∨ inPedestalSet p.members s.control.number = false)
    let used := mode = .group ∧ ∃ g ∈ s.groups.records, g.group = p.group
    let noRecord := mode = .group ∧ 4 ≤ s.groups.records.length
    (s.control.station = .faultStop ∧ r = .notActive) ∨
      (s.control.station = .active ∧
        ((duplicate ∧ r = .duplicateTag) ∨ (¬duplicate ∧ full ∧ r = .listFull) ∨
          (¬duplicate ∧ ¬full ∧ range ∧ r = .badShot) ∨ (¬duplicate ∧ ¬full ∧ ¬range ∧ noMember ∧ r = .badGroup) ∨
          (¬duplicate ∧ ¬full ∧ ¬range ∧ ¬noMember ∧ used ∧ r = .duplicateGroup) ∨
          (¬duplicate ∧ ¬full ∧ ¬range ∧ ¬noMember ∧ ¬used ∧ noRecord ∧ r = .listFull))) →
    exec (.cue h p) s = .next (pushReport (.cue p.tag (.failed r)) (endSpent s))

/-- A CUE that passes every test of R35 joins the end of the list as a QUEUED entry, a GROUP one with its record: behind two
entries or one that is not running nothing else changes; as the head it waits while its record is being written, and fails
with BAD_SHOT when the record is EMPTY, its group record going with it (R28, R31, R32, R35, R42, R49, R97). -/
def Obligations.AcceptedCueJoinsTheList : Prop :=
  ∀ (s : State) (h : Header) (p : CuePayload) (mode : StartMode),
    takenFromCue h s → cueStartMode p.mode = some mode → s.control.station = .active →
    (∀ e ∈ s.cues, e.tag ≠ p.tag) → s.cues.length < 8 → p.shot.toNat ≤ 127 →
    (mode = .group →
      p.group ≠ 0 ∧ inPedestalSet p.members s.control.number = true ∧ (∀ g ∈ s.groups.records, g.group ≠ p.group) ∧
        s.groups.records.length < 4) →
    let e : CueEntry :=
      { tag := p.tag, shot := p.shot.toNat, priority := cuePriority p.mode, mode := mode
        group := if mode = .group then some p.group else none
        take := decide (mode = .immediate), stage := .queued, retry := 0, copy := none, plan := none
        deferralReported := false, ending := none }
    let joins := { endSpent s with
      cues := s.cues ++ [e]
      groups := { s.groups with
        records := s.groups.records ++
          if mode = .group then
            [⟨p.group, (pedestalsOf p.members).map fun n => ⟨n, none⟩, .collecting, none, none⟩]
          else [] } }
    (2 ≤ s.cues.length ∨ (s.cues.length = 1 ∧ headRunning s = false) → exec (.cue h p) s = .next joins) ∧
    (s.cues = [] → writing s.store p.shot.toNat = true → exec (.cue h p) s = .next joins) ∧
    (s.cues = [] → writing s.store p.shot.toNat = false → recordOf s.store p.shot.toNat = .empty →
      (∀ o ∈ s.claims.own, o.claim.kind ≠ .leg) →
      exec (.cue h p) s = .next (pushReport (.cue p.tag (.failed .badShot)) (endSpent s)))

/-- A CUE accepted into an empty list, or behind a RUNNING head with no stop in progress, naming a VALID record, is planned:
from the last setpoints, or from the head's targets. Each wanted position outside the soft limits is brought to the nearer
limit and AXIS_LIMIT raised for it. At REPORT severity, or with none: a move of more than 65,535 ms fails with PLAN_RANGE, its
report behind the fault report, a GROUP entry's record going with it; with no free candidate the entry stays in ROUTING; else
the first free one is chosen: with legs the entry is CLAIMING, its legs PENDING with its priority and retry count 0, without
legs CLAIMED. The claim wait timer starts with legs unless the choice is "none". An IMMEDIATE head, its take flag set from the
start, of a shot not live-permitted is deferred on air, DEFERRED behind the other reports; not deferred and CLAIMED at once, it
starts with motion IDLE and no RESTART waiting: RUNNING, STARTED reported, and with N of 0 COMPLETED at the same event (what
that completion leaves, and that it raises nothing, is stated with no peer known). A GROUP entry brings its record and waits to be taken. At STOP severity the first raise ends the building and
enters FAULT_STOP, which fails the entry with FAULT (R15, R35, R42, R43, R45, R46, R50, R61, R62, R63, R67, R75, R76, R77, R97,
R137, R167). -/
def Obligations.HeadCueIsPlannedAndAnnounced : Prop :=
  ∀ (s : State) (h : Header) (p : CuePayload) (mode : StartMode) (c : ShotContent) (starts : PerAxis Position)
    (kind : ClaimKind),
    takenFromCue h s → cueStartMode p.mode = some mode → s.control.station = .active →
    (mode = .group →
      p.group ≠ 0 ∧ inPedestalSet p.members s.control.number = true ∧ (∀ g ∈ s.groups.records, g.group ≠ p.group) ∧
        s.groups.records.length < 4) →
    (∀ e ∈ s.cues, e.tag ≠ p.tag) → p.shot.toNat ≤ 127 → writing s.store p.shot.toNat = false →
    recordOf s.store p.shot.toNat = .valid c →
    (s.cues = [] ∧ starts = s.port.lastSetpoint ∧ kind = .leg) ∨
      (∃ e q, s.cues = [e] ∧ e.stage = .running ∧ e.plan = some q ∧ s.profile.motion ≠ .stopping ∧
        starts = q.target ∧ kind = .nextLeg) →
    let entry : CueEntry :=
      { tag := p.tag, shot := p.shot.toNat, priority := cuePriority p.mode, mode := mode
        group := if mode = .group then some p.group else none
        take := decide (mode = .immediate), stage := .queued, retry := 0, copy := none, plan := none
        deferralReported := false, ending := none }
    let groups := { s.groups with
      records := s.groups.records ++
        if mode = .group then [⟨p.group, (pedestalsOf p.members).map fun n => ⟨n, none⟩, .collecting, none, none⟩]
        else [] }
    let plan := buildPlan (configOf s) starts c
    let limited := limitAxes s starts c
    let reports := s.bus.reportFifo ++ firstReport s .axisLimit (limited.map .axis)
    let taken := decide (mode = .immediate ∧ kind = .leg)
    let defers := taken && s.tally.onAir && !c.livePermitted
    let begins := taken && !defers && decide (s.profile.motion = .idle ∧ s.control.restartPending = false)
    let told := fun e : CueEntry => { e with deferralReported := defers }
    let answered := reports ++ if defers then [.cue p.tag .deferred] else []
    (∀ a,
      let l := (configOf s).axes.get a
      let wanted := (c.targets.get a).getD (starts.get a)
      plan.target.get a =
        if wanted.toNat < l.softMin.toNat then l.softMin
        else if l.softMax.toNat < wanted.toNat then l.softMax
        else wanted) ∧
    (limited = [] ∨ (settingOf s .axisLimit).severity = .report →
      ∃ t, exec (.cue h p) s = .next t ∧
        t.faults.get .axisLimit = flagsAfterRaises limited.length (s.faults.get .axisLimit) ∧
        (begins = false ∨ 1 ≤ plan.duration ∨ s.peers = [] →
          (∀ k, k ≠ .axisLimit → t.faults.get k = s.faults.get k) ∧ t.control = s.control) ∧
        t.store = s.store ∧ t.peers = s.peers ∧ t.tally = s.tally ∧ t.bus.readyFifo = s.bus.readyFifo ∧
        (65535 < plan.duration → (∀ o ∈ s.claims.own, o.claim.kind ≠ kind) →
          t.cues = s.cues ∧ t.claims = s.claims ∧ t.groups = s.groups ∧ t.port = s.port ∧ t.profile = s.profile ∧
          (s.bus.reportFifo.length < 7 → t.bus.reportFifo = reports ++ [.cue p.tag (.failed .planRange)])) ∧
        (plan.duration ≤ 65535 → allBlocked plan (obstacles s) →
          t.cues = s.cues ++ [told (blockedEntry entry c plan)] ∧ t.groups = groups ∧ t.port = s.port ∧
          t.profile = s.profile ∧
          t.claims = { s.claims with
            claimWaitTimer := s.claims.claimWaitTimer || decide ((configOf s).claimWait ≠ .never) } ∧
          (s.bus.reportFifo.length + (if defers then 1 else 0) < 8 → t.bus.reportFifo = answered)) ∧
        ∀ i r, plan.duration ≤ 65535 → firstFree plan (obstacles s) i r →
          (r.legs ≠ [] ∨ begins = false →
            t.cues = s.cues ++ [told (stagedEntry entry c plan i r)] ∧ t.groups = groups ∧ t.port = s.port ∧
            t.profile = s.profile ∧
            t.claims = { s.claims with
              own := s.claims.own ++ pendingClaims kind ⟨cuePriority p.mode, 0⟩ r.legs
              claimWaitTimer :=
                s.claims.claimWaitTimer || (decide (r.legs ≠ []) && decide ((configOf s).claimWait ≠ .never)) } ∧
            t.bus.stateMarker = (s.bus.stateMarker || decide (r.legs ≠ []) || decide (t.faults ≠ s.faults)) ∧
            (s.bus.reportFifo.length + (if defers then 1 else 0) < 8 → t.bus.reportFifo = answered)) ∧
          (r.legs = [] → begins = true →
            t.groups = s.groups ∧ t.port = { s.port with blanking := freshWindow s } ∧ t.bus.stateMarker = true ∧
            (1 ≤ plan.duration →
              t.cues = [{ stagedEntry entry c plan i r with stage := .running }] ∧ t.claims = s.claims ∧
              t.profile = startedProfile s s.tally.onAir c { plan with chosen := some i } ∧
              (s.bus.reportFifo.length < 7 → t.bus.reportFifo = reports ++ [.cue p.tag .started])) ∧
            (plan.duration = 0 → s.peers = [] →
              t.cues = [] ∧ t.profile.motion = .idle ∧ t.profile.plan = none ∧
              t.profile.rate = (if s.profile.hold then 0 else 256) ∧
              t.claims = { s.claims with own := parkedAt s s.port.lastSetpoint :: relabelled s } ∧
              (s.bus.reportFifo.length < 6 →
                t.bus.reportFifo = reports ++ [.cue p.tag .started, .cue p.tag .completed])))) ∧
    (limited ≠ [] → (settingOf s .axisLimit).severity = .stop → s.cues = [] →
      ∃ t, exec (.cue h p) s = .next t ∧ t.cues = [] ∧ t.groups = s.groups ∧
        t.faults.get .axisLimit = ⟨true, (s.faults.get .axisLimit).sticky⟩ ∧
        t.control = { s.control with
          station := .faultStop
          faultPin := true
          driveEnable := s.control.driveEnable && decide (s.profile.motion ≠ .idle) } ∧
        ((∀ o ∈ s.claims.own, o.claim.kind ≠ .leg) → s.bus.reportFifo.length < 7 →
          t.claims.own = s.claims.own ∧ t.bus.reportFifo = reports ++ [.cue p.tag (.failed .fault)]))

/-- TAKE and GROUP_TAKE of an entry behind the head set its take flag and change nothing else; a TAKE of an unknown tag is
reported, a GROUP_TAKE of an unknown group is ignored (R37, R38). -/
def Obligations.TakeSetsTheFlagBehindTheHead : Prop :=
  ∀ (s : State) (h : Header) (tag group : Byte) (before after : List CueEntry) (e : CueEntry),
    takenFromCue h s → onBus s = true →
    ((∀ x ∈ s.cues, x.tag ≠ tag) →
      exec (.take h tag) s = .next (pushReport (.cue tag (.failed .unknownTag)) (endSpent s))) ∧
    ((∀ x ∈ s.cues, x.group ≠ some group) → exec (.groupTake h group) s = .next (endSpent s)) ∧
    (before ≠ [] → s.cues = before ++ e :: after →
      (e.tag = tag → (∀ x ∈ before, x.tag ≠ tag) →
        exec (.take h tag) s = .next { endSpent s with cues := before ++ { e with take := true } :: after }) ∧
      (e.group = some group → (∀ x ∈ before, x.group ≠ some group) →
        exec (.groupTake h group) s = .next { endSpent s with cues := before ++ { e with take := true } :: after }))

/-- The TAKE of a head that is not of a group. On air with live-permitted clear and a move planned, it is deferred, and
DEFERRED is reported once. Else, CLAIMED in ACTIVE with motion IDLE and no peer known, it starts: STARTED is reported, and the
plan with its chosen route runs from profile time 0, RUNNING or HELD with the rate at its target, the blanking windows
restarted; a route with legs releases PARKED, one without keeps it. A QUEUED second entry is pre-planned at that event, from
the head's targets. A move with N of 0 completes at that event: COMPLETED follows STARTED, the entry leaves, motion is IDLE,
PARKED is laid at the setpoints, which stay, and a QUEUED entry behind becomes head and is read (R37, R42, R43, R45, R46, R47,
R67, R68, R86, R118). -/
def Obligations.TakeStartsOrDefersTheHead : Prop :=
  ∀ (s : State) (h : Header) (e : CueEntry) (rest : List CueEntry) (c : ShotContent) (p : Plan),
    takenFromCue h s → s.cues = e :: rest → e.copy = some c → e.plan = some p →
    (onBus s = true → e.stage = .routing ∨ e.stage = .claiming ∨ e.stage = .claimed → c.livePermitted = false →
      s.tally.onAir = true →
      exec (.take h e.tag) s =
        if e.deferralReported then .next { endSpent s with cues := { e with take := true } :: rest }
        else
          .next (pushReport (.cue e.tag .deferred)
            { endSpent s with cues := { e with take := true, deferralReported := true } :: rest })) ∧
    (s.control.station = .active → e.stage = .claimed → e.mode ≠ .group → c.livePermitted = true ∨ s.tally.onAir = false →
      s.profile.motion = .idle → s.control.restartPending = false → s.peers = [] →
      let running : CueEntry := { e with take := true, stage := .running }
      ∃ u, u.bus.stateMarker = true ∧ u.control = s.control ∧ u.store = s.store ∧ u.faults = s.faults ∧
        u.tally = s.tally ∧ u.peers = [] ∧ u.bus.readyFifo = s.bus.readyFifo ∧
        u.port = { s.port with blanking := freshWindow s } ∧
        (1 ≤ p.common.getD p.duration →
          u.cues = running :: rest ∧ u.groups = s.groups ∧
          u.profile = { s.profile with
            motion := if s.profile.hold then .held else .running
            plan := some ⟨p, chosenRoute p, p.common.getD p.duration, c.livePermitted⟩
            time := 0
            rate := if s.profile.hold then 0 else 256
            stopKind := none
            leg1Passed := false } ∧
          u.claims = { s.claims with
            own :=
              if (chosenRoute p).legs = [] then s.claims.own
              else s.claims.own.filter fun o => o.claim.kind != .parked } ∧
          (s.bus.reportFifo.length < 8 → u.bus.reportFifo = s.bus.reportFifo ++ [.cue e.tag .started]) ∧
          ∀ f more, rest = f :: more → f.stage = .queued →
            ∃ t, exec (.take h e.tag) s = .next t ∧ t.bus.stateMarker = true ∧
              planningMakes p.target .nextLeg [running] f more u t) ∧
        (p.common.getD p.duration = 0 →
          u.cues = rest ∧ u.profile.motion = .idle ∧ u.profile.plan = none ∧
          u.profile.rate = (if s.profile.hold then 0 else 256) ∧ (e.group = none → u.groups = s.groups) ∧
          u.claims = { s.claims with own := parkedAt s s.port.lastSetpoint :: relabelled s } ∧
          (s.bus.reportFifo.length < 7 →
            u.bus.reportFifo = s.bus.reportFifo ++ [.cue e.tag .started, .cue e.tag .completed]) ∧
          ∀ f more, rest = f :: more → f.stage = .queued →
            ∃ t, exec (.take h e.tag) s = .next t ∧ planningMakes s.port.lastSetpoint .leg [] f more u t) ∧
        (rest = [] → exec (.take h e.tag) s = .next u))

/-- The GROUP_TAKE of a CLAIMED group head whose entry to GROUP_WAIT is not deferred: it enters GROUP_WAIT, the group wait
timer starts, and its readiness, with its own N and the configured G, joins the end of the READY FIFO; a full FIFO first
discards its oldest withdrawal that is not in transmission. Nothing is reported and nothing else changes (R38, R44, R101,
R102). -/
def Obligations.GroupTakeEntersGroupWait : Prop :=
  ∀ (s : State) (h : Header) (g : Byte) (e : CueEntry) (rest : List CueEntry) (c : ShotContent) (p : Plan),
    takenFromCue h s → onBus s = true → s.cues = e :: rest → e.group = some g → e.mode = .group → e.stage = .claimed →
    e.copy = some c → e.plan = some p → c.livePermitted = true ∨ s.tally.onAir = false →
    let waits := fun fifo : List QueuedReady =>
      exec (.groupTake h g) s =
        .next { s with
          cues := { e with take := true, stage := .groupWait } :: rest
          groups := { s.groups with waitTimer := true }
          bus := { s.bus with
            spent := false
            readyFifo := fifo ++ [⟨g, e.tag, p.duration, (configOf s).startDelay, false, false⟩] } }
    (s.bus.readyFifo.length < 4 → waits s.bus.readyFifo) ∧
    ∀ sent kept later w, s.bus.readyFifo = sent ++ kept ++ w :: later → s.bus.readyFifo.length = 4 →
      sent.length = readySent s → (∀ q ∈ kept, q.withdrawn = false) → w.withdrawn = true →
      waits (sent ++ kept ++ later)

/-- CANCEL of a tag: unknown, it is reported; a QUEUED entry behind the second leaves with CANCELLED and its record. The head or
second entry, its move not running (no peer known), leaves with CANCELLED, its LEG or NEXT_LEG rectangles and its group record,
its claim timers stopped when it is past QUEUED; before GROUP_WAIT no withdrawal is queued; in GROUP_WAIT the group timers stop,
the start delay timer among them, and a withdrawal is placed with the record COLLECTING, none with it STARTING. In ACTIVE the
place it left is filled at that event: the QUEUED entry behind the head becomes head and is read, and behind a RUNNING head with
no stop in progress the third entry becomes second and is pre-planned. A running head begins a stop with its ending CANCELLED,
and one already stopping is left as it is (R39, R40, R41, R42, R46, R102, R105, R108, R109). -/
def Obligations.CancelRemovesTheEntryOrBeginsAStop : Prop :=
  ∀ (s : State) (h : Header) (tag : Byte) (before after : List CueEntry) (e : CueEntry),
    takenFromCue h s → onBus s = true →
    ((∀ x ∈ s.cues, x.tag ≠ tag) →
      exec (.cancel h tag) s = .next (pushReport (.cue tag (.failed .unknownTag)) (endSpent s))) ∧
    (s.cues = before ++ e :: after → 2 ≤ before.length → e.tag = tag → (∀ x ∈ before, x.tag ≠ tag) → e.stage = .queued →
      exec (.cancel h tag) s =
        .next (pushReport (.cue tag .cancelled)
          { endSpent s with
            cues := before ++ after
            groups := { s.groups with
              records := s.groups.records.filter fun r => decide (e.group ≠ some r.group) } })) ∧
    (s.cues = e :: after → e.tag = tag → e.stage ≠ .running → s.peers = [] →
      ∃ u, entryCancelled e .leg after s u ∧ (after = [] → exec (.cancel h tag) s = .next u) ∧
        ∀ f more, after = f :: more → f.stage = .queued → s.control.station = .active →
          ∃ t, exec (.cancel h tag) s = .next t ∧ planningMakes s.port.lastSetpoint .leg [] f more u t) ∧
    (∀ d, s.cues = d :: e :: after → d.tag ≠ tag → e.tag = tag → e.stage ≠ .running → s.peers = [] →
      ∃ u, entryCancelled e .nextLeg (d :: after) s u ∧
        (after = [] ∨ d.stage ≠ .running ∨ s.profile.motion = .stopping ∨ s.control.station ≠ .active →
          exec (.cancel h tag) s = .next u) ∧
        ∀ f more p, after = f :: more → f.stage = .queued → d.stage = .running → d.plan = some p →
          s.profile.motion ≠ .stopping → s.control.station = .active →
          ∃ t, exec (.cancel h tag) s = .next t ∧ planningMakes p.target .nextLeg [d] f more u t) ∧
    (s.cues = e :: after → e.tag = tag → e.stage = .running →
      (s.profile.motion = .stopping → exec (.cancel h tag) s = .next (endSpent s)) ∧
      (s.profile.motion = .running ∨ s.profile.motion = .held →
        ∃ t, exec (.cancel h tag) s = .next t ∧ t.cues = { e with ending := some .cancelled } :: after ∧
          t.profile = { s.profile with motion := .stopping, stopKind := some .cancel } ∧ t.bus.stateMarker = true ∧
          t.bus.reportFifo = s.bus.reportFifo ∧ t.port.lastSetpoint = s.port.lastSetpoint ∧ t.claims = s.claims ∧
          t.control = s.control ∧ t.groups = s.groups ∧ t.store = s.store ∧ t.faults = s.faults ∧ t.peers = s.peers))

/-- CANCEL naming "all", with no peer known: every entry that is not running leaves with CANCELLED, reported in list order
while the FIFO has room, with its rectangles and its group record; a running head begins a stop with its ending CANCELLED. A
head in GROUP_WAIT leaves its group as at a CANCEL of its tag: group timers stopped, a withdrawal placed with the record
COLLECTING and none with it STARTING; an entry before GROUP_WAIT queues none (R39, R41, R102, R108, R109). That no entry makes
a planning read on the way, so that the fault set stays and each is reported CANCELLED, is the model's choice (log 31). -/
def Obligations.CancelAllEmptiesTheList : Prop :=
  ∀ (s : State) (h : Header) (e : CueEntry) (rest : List CueEntry),
    takenFromCue h s → onBus s = true → s.peers = [] → s.cues = e :: rest →
    ∃ t, exec (.cancelAll h) s = .next t ∧ t.control = s.control ∧ t.store = s.store ∧ t.faults = s.faults ∧
      t.tally = s.tally ∧ t.port.lastSetpoint = s.port.lastSetpoint ∧
      (∀ x ∈ s.cues, x.stage ≠ .running → ∀ g, x.group = some g → ∀ r ∈ t.groups.records, r.group ≠ g) ∧
      ((∀ x ∈ s.cues, x.stage ≠ .groupWait) → t.bus.readyFifo = s.bus.readyFifo) ∧
      (∀ r, e.stage = .groupWait → (∀ x ∈ rest, x.stage ≠ .groupWait) → e.group = some r.group →
        groupRecord r.group s = some r → leavesGroupWait r e.tag s t) ∧
      (e.stage ≠ .running →
        t.cues = [] ∧ t.profile = s.profile ∧ t.claims.own = s.claims.own.filter (fun o => o.claim.kind != .leg) ∧
        (s.bus.reportFifo.length + s.cues.length ≤ 8 →
          t.bus.reportFifo = s.bus.reportFifo ++ s.cues.map fun x => .cue x.tag .cancelled)) ∧
      (e.stage = .running → s.profile.motion = .running ∨ s.profile.motion = .held →
        t.cues = [{ e with ending := some .cancelled }] ∧ t.bus.stateMarker = true ∧
        t.profile = { s.profile with motion := .stopping, stopKind := some .cancel } ∧
        t.claims.own = (if rest = [] then s.claims.own else s.claims.own.filter fun o => o.claim.kind != .nextLeg) ∧
        (s.bus.reportFifo.length + rest.length ≤ 8 →
          t.bus.reportFifo = s.bus.reportFifo ++ rest.map fun x => .cue x.tag .cancelled))

/-- HOLD and RESUME: with the flag already as asked nothing changes; else the flag and the STATE marker change, a HOLD
restarts the blanking windows when it takes the rate target down to 0, and a RESUME makes a HELD move RUNNING; the rate and
profile time stay (R115, R121, R128). -/
def Obligations.HoldAndResumeSetTheFlag : Prop :=
  ∀ (s : State) (h : Header), takenFromCue h s → onBus s = true →
    (s.profile.hold = true → exec (.hold h) s = .next (endSpent s)) ∧
    (s.profile.hold = false → exec (.resume h) s = .next (endSpent s)) ∧
    (s.profile.hold = false →
      exec (.hold h) s =
        .next { s with
          profile := { s.profile with hold := true }
          bus := { s.bus with spent := false, stateMarker := true }
          port := { s.port with
            blanking :=
              if s.profile.motion = .idle ∨ rateTarget s = 0 then s.port.blanking
              else if (configOf s).blanking = 0 then none
              else some (configOf s).blanking } }) ∧
    (s.profile.hold = true →
      ∃ t, exec (.resume h) s = .next t ∧
        t.profile = { s.profile with
          hold := false, motion := if s.profile.motion = .held then .running else s.profile.motion } ∧
        t.bus = { s.bus with spent := false, stateMarker := true } ∧ t.port.lastSetpoint = s.port.lastSetpoint ∧
        t.port.exchange = s.port.exchange ∧ t.cues = s.cues ∧ t.claims = s.claims ∧ t.control = s.control ∧
        t.groups = s.groups ∧ t.store = s.store ∧ t.faults = s.faults ∧ t.peers = s.peers ∧ t.tally = s.tally)

/-! ### The shot store (chapter 2) -/

/-- STORE_SHOT, CAPTURE_SHOT and ERASE_SHOT that pass their tests start a write with the new content, and nothing else
changes: the record keeps its content until the write's completion (R19, R20, R21, R23). -/
def Obligations.StoreRequestsStartTheWrite : Prop :=
  ∀ (s : State) (h : Header) (shot : Byte), takenFromCue h s → onBus s = true → shot.toNat ≤ 127 → s.store.write = none →
    let writes := fun content : Record =>
      { endSpent s with store := { s.store with write := some ⟨shot.toNat, content⟩ } }
    let differs := fun content : Record => recordOf s.store shot.toNat ≠ content ∨ shot.toNat ∈ s.store.corrupt
    (∀ body, labelPrintable body.label = true → bodySound body = true → differs (.valid (bodyContent body)) →
      exec (.storeShot h shot body) s = .next (writes (.valid (bodyContent body)))) ∧
    (∀ label, labelPrintable label = true → s.profile.motion = .idle →
      let content : ShotContent :=
        { targets := PerAxis.ofFn fun a => some (s.port.lastSetpoint.get a)
          moveTime := none, routeHint := .either, livePermitted := false, label := labelOf label }
      differs (.valid content) → exec (.captureShot h shot label) s = .next (writes (.valid content))) ∧
    (differs .empty → exec (.eraseShot h shot) s = .next (writes .empty))

/-- The store requests that start no write are reported with the first outcome their tests reach, and nothing else changes:
BAD_NUMBER, BAD_RECORD, NOT_IDLE (CAPTURE_SHOT), BUSY, UNCHANGED (R19, R20, R21). -/
def Obligations.StoreRequestsReportTheOutcome : Prop :=
  ∀ (s : State) (h : Header) (shot : Byte), takenFromCue h s → onBus s = true →
    let reports := fun o : StoreOutcome => pushReport (.store shot o) (endSpent s)
    let same := fun content : Record =>
      s.store.write = none ∧ recordOf s.store shot.toNat = content ∧ shot.toNat ∉ s.store.corrupt
    (127 < shot.toNat →
      (∀ body, exec (.storeShot h shot body) s = .next (reports .badNumber)) ∧
      (∀ label, exec (.captureShot h shot label) s = .next (reports .badNumber)) ∧
      exec (.eraseShot h shot) s = .next (reports .badNumber)) ∧
    (shot.toNat ≤ 127 →
      (∀ body,
        (labelPrintable body.label = false ∨ bodySound body = false →
          exec (.storeShot h shot body) s = .next (reports .badRecord)) ∧
        (labelPrintable body.label = true → bodySound body = true →
          (s.store.write ≠ none → exec (.storeShot h shot body) s = .next (reports .busy)) ∧
          (same (.valid (bodyContent body)) → exec (.storeShot h shot body) s = .next (reports .unchanged)))) ∧
      (∀ label,
        (labelPrintable label = false → exec (.captureShot h shot label) s = .next (reports .badRecord)) ∧
        (labelPrintable label = true →
          (s.profile.motion ≠ .idle → exec (.captureShot h shot label) s = .next (reports .notIdle)) ∧
          (s.profile.motion = .idle →
            (s.store.write ≠ none → exec (.captureShot h shot label) s = .next (reports .busy)) ∧
            (same (.valid (capturedContent label s)) → exec (.captureShot h shot label) s = .next (reports .unchanged))))) ∧
      (s.store.write ≠ none → exec (.eraseShot h shot) s = .next (reports .busy)) ∧
      (same .empty → exec (.eraseShot h shot) s = .next (reports .unchanged)))

/-- READ_SHOT replaces the read cursor whole: the number as carried, the count clamped into 1 to 8, and 1 for a number above
127. A SHOT_DATA in transmission will leave the new cursor as it is (R26, R27). -/
def Obligations.ReadShotReplacesTheCursor : Prop :=
  ∀ (s : State) (h : Header) (first count : Byte), takenFromCue h s → onBus s = true →
    exec (.readShot h first count) s =
      .next { s with
        bus := { s.bus with
          spent := false
          cursor :=
            ⟨first.toNat,
              if 127 < first.toNat then 1
              else if count.toNat = 0 then 1
              else if 8 < count.toNat then 8
              else count.toNat⟩
          transmission := s.bus.transmission.map fun t => { t with cursorReplaced := true } } }

/-- The write's completion: verified, the area is the stored form of the content and the corrupt mark is cleared; failed, the
record is EMPTY with its corrupt mark set; other records keep their areas and marks, no write is in flight, and in ACTIVE and
FAULT_STOP the outcome is reported; with no entry waiting for the record nothing else changes. A QUEUED head that waits for it
reads it afresh in ACTIVE: EMPTY, it fails with BAD_SHOT; VALID, within the limits and in range, with the take flag clear, it
is planned and its first free candidate chosen. Outside ACTIVE it goes on waiting. With no write in flight nothing happens
(R24, R28, R42, R63, R75). -/
def Obligations.WriteCompletionEndsTheWrite : Prop :=
  ∀ (s : State) (verified : Bool), hears s →
    (s.store.write = none → exec (.writeCompletion verified) s = .next s) ∧
    (∀ w, s.store.write = some w →
      let outcome : StoreOutcome := if verified then .written else .writeFailed
      ∃ t, exec (.writeCompletion verified) s = .next t ∧ t.store.write = none ∧
        (verified = true → areaOf t.store.areas w.shot = storedForm w.content ∧ w.shot ∉ t.store.corrupt) ∧
        (verified = false → recordOf t.store w.shot = .empty ∧ w.shot ∈ t.store.corrupt) ∧
        (∀ n, n ≠ w.shot →
          areaOf t.store.areas n = areaOf s.store.areas n ∧ (n ∈ t.store.corrupt ↔ n ∈ s.store.corrupt)) ∧
        ((∀ e ∈ s.cues, e.stage = .queued → e.shot ≠ w.shot) →
          t.bus = (if onBus s then (pushReport (.store (BitVec.ofNat 8 w.shot) outcome) s).bus else s.bus) ∧
          t.cues = s.cues ∧ t.control = s.control ∧ t.port = s.port ∧ t.profile = s.profile ∧ t.claims = s.claims ∧
          t.groups = s.groups ∧ t.faults = s.faults ∧ t.peers = s.peers ∧ t.tally = s.tally) ∧
        ∀ e rest, s.cues = e :: rest → e.stage = .queued → e.shot = w.shot → w.shot ≤ 127 →
          let read := if verified then areaRecord (storedForm w.content) else .empty
          let reports := s.bus.reportFifo ++ [.store (BitVec.ofNat 8 w.shot) outcome]
          (s.control.station ≠ .active → t.cues = s.cues) ∧
          (s.control.station = .active → read = .empty → rest = [] →
            t.cues = [] ∧
            (s.bus.reportFifo.length < 7 → t.bus.reportFifo = reports ++ [.cue e.tag (.failed .badShot)])) ∧
          ∀ c i r, s.control.station = .active → read = .valid c → limitAxes s s.port.lastSetpoint c = [] →
            e.take = false →
            let plan := buildPlan (configOf s) s.port.lastSetpoint c
            plan.duration ≤ 65535 → firstFree plan (obstacles s) i r →
            t.cues = stagedEntry e c plan i r :: rest ∧
            t.claims.own = s.claims.own ++ pendingClaims .leg ⟨e.priority, e.retry⟩ r.legs ∧
            (s.bus.reportFifo.length < 8 → t.bus.reportFifo = reports))

/-! ### Faults, peers, tally (chapters 5, 8, 9, 10) -/

/-- A raise sets the sticky flag, a later one the recur flag, a change of a flag sets the STATE marker in ACTIVE and
FAULT_STOP, and only the first raise of an unmasked class is reported; a report that finds the FIFO full is discarded and
sets the reports-lost flag (R146, R147, R163, R164, R165). -/
def Obligations.RaiseIsReportedOnce : Prop :=
  ∀ (s : State) (c : FaultClass) (name : FaultName),
    let t := raiseFlags c name s
    let reported := (s.faults.get c).sticky = false ∧ (settingOf s c).masked = false
    t.faults.get c = ⟨true, (s.faults.get c).sticky⟩ ∧ (∀ d, d ≠ c → t.faults.get d = s.faults.get d) ∧
      t.bus.stateMarker = (s.bus.stateMarker || (onBus s && decide (s.faults.get c ≠ ⟨true, true⟩))) ∧
      (reported → s.bus.reportFifo.length < 8 →
        t.bus.reportFifo = s.bus.reportFifo ++ [.fault c name] ∧ t.bus.reportsLost = s.bus.reportsLost) ∧
      (reported → 8 ≤ s.bus.reportFifo.length →
        t.bus.reportFifo = s.bus.reportFifo ∧ t.bus.reportsLost = true) ∧
      (¬reported → t.bus.reportFifo = s.bus.reportFifo ∧ t.bus.reportsLost = s.bus.reportsLost) ∧
      t.control = s.control ∧ t.cues = s.cues ∧ t.claims = s.claims ∧ t.profile = s.profile ∧ t.port = s.port

/-- CLEAR_FAULTS clears the flags of the classes it names, with the STATE marker set in ACTIVE and FAULT_STOP when a flag
changes. In FAULT_STOP with motion IDLE and no STOP-severity flag left the station returns to ACTIVE, drive enable asserted
and the FAULT pin deasserted; else nothing more happens (R163, R170, R171). That a station strapped 17 to 29 takes one sent to
its own number, which is among the frames stated here, is the model's choice where R142's table and text disagree (log 28). -/
def Obligations.ClearFaultsAndReturnToActive : Prop :=
  ∀ (s : State) (h : Header) (classes : BitVec 16), takenFromCue h s →
    let cleared : PerClass FaultFlags :=
      PerClass.ofFn fun c => if classes.getLsbD c.code then ⟨false, false⟩ else s.faults.get c
    let free := s.control.station = .faultStop ∧ s.profile.motion = .idle ∧
      ∀ c, (settingOf s c).severity = .stop → (cleared.get c).sticky = false
    (free →
      exec (.clearFaults h classes) s =
        .next { s with
          faults := cleared
          control := { s.control with station := .active, faultPin := false, driveEnable := true }
          bus := { s.bus with spent := false, stateMarker := true } }) ∧
    (¬free →
      exec (.clearFaults h classes) s =
        .next { s with
          faults := cleared
          bus := { s.bus with
            spent := false
            stateMarker := s.bus.stateMarker || (onBus s && decide (cleared ≠ s.faults)) } })

/-- FORGET_PEER removes the entry with that number and takes it out of the overlap set without a raise, or has no effect when
there is none. A peer entry whose age timer expires becomes LOST with its claims kept, and PEER_LOST is raised, here with
REPORT severity; a LOST or absent one has no timer. Nothing else changes with no entry in ROUTING. At both events an only
entry in ROUTING has its route tested again against the rectangles of the peers still known: the first free candidate is
chosen and its legs announced, or the entry stays (R63, R75, R76, R85, R95, R96, R156, R158, R159). -/
def Obligations.PeerForgottenOrLost : Prop :=
  ∀ (s : State), hears s →
    let settled := ∀ e ∈ s.cues, e.stage ≠ .routing
    let retested := fun t : State =>
      ∀ e p, s.cues = [e] → e.stage = .routing → e.plan = some p →
        (allBlocked p (obstacles t) → t.cues = [e] ∧ t.claims.own = s.claims.own) ∧
        ∀ i r, firstFree p (obstacles t) i r →
          t.cues =
            [{ e with
              plan := some { p with chosen := some i }, stage := if r.legs = [] then .claimed else .claiming }] ∧
          t.claims.own = s.claims.own ++ pendingClaims .leg ⟨e.priority, e.retry⟩ r.legs
    (∀ (h : Header) (number : Byte), takenFromCue h s →
      ((∃ p ∈ s.peers, p.number = number.toNat) →
        (settled →
          exec (.forgetPeer h number) s =
            .next { endSpent s with
              peers := s.peers.filter fun p => decide (p.number ≠ number.toNat)
              claims := { s.claims with overlap := s.claims.overlap.filter fun n => decide (n ≠ number.toNat) } }) ∧
        ∃ t, exec (.forgetPeer h number) s = .next t ∧ retested t ∧
          t.peers = (s.peers.filter fun p => decide (p.number ≠ number.toNat)) ∧ t.faults = s.faults ∧
          t.claims.overlap = (s.claims.overlap.filter fun n => decide (n ≠ number.toNat))) ∧
      ((∀ p ∈ s.peers, p.number ≠ number.toNat) → exec (.forgetPeer h number) s = .next (endSpent s))) ∧
    ∀ n : Nat,
      ((∀ p, peerOf n s = some p → p.status = .lost) → exec (.peerAgeExpiry n) s = .next s) ∧
      (∀ p, peerOf n s = some p → p.status = .live → (settingOf s .peerLost).severity = .report →
        ∃ t, exec (.peerAgeExpiry n) s = .next t ∧ peerOf n t = some { p with status := .lost } ∧ retested t ∧
          (∀ m, m ≠ n → peerOf m t = peerOf m s) ∧
          t.faults.get .peerLost = ⟨true, (s.faults.get .peerLost).sticky⟩ ∧
          (settled → t.claims = s.claims ∧ t.cues = s.cues) ∧
          t.control = s.control ∧ t.profile = s.profile ∧ t.port = s.port ∧ t.store = s.store ∧ t.groups = s.groups ∧
          t.tally = s.tally)

/-- TALLY from 31 makes the tally CURRENT and restarts its age timer; with the view unchanged nothing else happens. A changed
view sets the STATE marker in ACTIVE and FAULT_STOP; with no list or a running head the rate target follows it: L on air for a
running plan whose shot is not live-permitted, 256 otherwise. A view turned off air starts a CLAIMED head whose take flag is
set, in ACTIVE with motion IDLE, or puts a group head into GROUP_WAIT with its readiness queued; a head in ROUTING or CLAIMING
stays. A view turned on air defers a taken head of a shot not live-permitted, reported once. The age timer's expiry makes the
tally LOST and on air and raises TALLY_LOST, here with REPORT severity (R43, R44, R45, R115, R132, R133, R134, R135, R138). -/
def Obligations.TallySetsTheOnAirView : Prop :=
  ∀ (s : State), hears s →
    (∀ (h : Header) (program : BitVec 16), fromOther h s → sourceOf h = 31 → isPedestal s.control.number = true →
      let view := program.getLsbD (s.control.number - 1)
      (view = s.tally.onAir → exec (.tally h program) s = .next { endSpent s with tally := ⟨view, .current, true⟩ }) ∧
      (view ≠ s.tally.onAir →
        ∃ t, exec (.tally h program) s = .next t ∧ t.tally = ⟨view, .current, true⟩ ∧
          (s.cues = [] ∨ headRunning s = true →
            t.bus.stateMarker = (s.bus.stateMarker || onBus s) ∧ t.bus.reportFifo = s.bus.reportFifo ∧
            (∀ run, s.profile.motion = .running → s.profile.hold = false → s.profile.plan = some run →
              run.livePermitted = false → rateTarget t = if view then (configOf s).liveRate else 256) ∧
            t.profile = s.profile ∧ t.port.lastSetpoint = s.port.lastSetpoint ∧ t.cues = s.cues ∧
            t.claims = s.claims ∧ t.control = s.control ∧ t.groups = s.groups ∧ t.store = s.store ∧
            t.faults = s.faults ∧ t.peers = s.peers) ∧
          ∀ e rest c p, s.cues = e :: rest → e.copy = some c → e.plan = some p →
            e.stage = .routing ∨ e.stage = .claiming ∨ e.stage = .claimed →
            (e.take = false ∨ (e.stage ≠ .claimed ∧ view = false) →
              t.cues = s.cues ∧ t.bus.reportFifo = s.bus.reportFifo ∧ t.claims = s.claims ∧ t.groups = s.groups) ∧
            (e.take = true → c.livePermitted = false → view = true →
              t.cues = { e with deferralReported := true } :: rest ∧
              (s.bus.reportFifo.length < 8 →
                t.bus.reportFifo = s.bus.reportFifo ++ if e.deferralReported then [] else [.cue e.tag .deferred])) ∧
            (e.take = true → e.stage = .claimed → view = false →
              (e.mode ≠ .group → s.control.station = .active → s.profile.motion = .idle →
                s.control.restartPending = false → rest = [] → s.peers = [] → (chosenRoute p).legs ≠ [] →
                1 ≤ p.common.getD p.duration →
                t.cues = [{ e with stage := .running }] ∧ t.profile = startedProfile s false c p ∧
                t.claims.own = (s.claims.own.filter fun o => o.claim.kind != .parked) ∧
                (s.bus.reportFifo.length < 8 → t.bus.reportFifo = s.bus.reportFifo ++ [.cue e.tag .started])) ∧
              (∀ g, e.mode = .group → e.group = some g → s.bus.readyFifo.length < 4 →
                t.cues = { e with stage := .groupWait } :: rest ∧ t.groups = { s.groups with waitTimer := true } ∧
                t.bus.readyFifo =
                  s.bus.readyFifo ++ [⟨g, e.tag, p.duration, (configOf s).startDelay, false, false⟩])))) ∧
    (s.tally.timer = false → exec .tallyAgeExpiry s = .next s) ∧
    (s.tally.timer = true → s.cues = [] ∨ headRunning s = true → (settingOf s .tallyLost).severity = .report →
      ∃ t, exec .tallyAgeExpiry s = .next t ∧ t.tally = ⟨true, .lost, false⟩ ∧
        t.faults.get .tallyLost = ⟨true, (s.faults.get .tallyLost).sticky⟩ ∧ t.profile = s.profile ∧
        t.port.lastSetpoint = s.port.lastSetpoint ∧ t.cues = s.cues ∧ t.claims = s.claims ∧ t.control = s.control ∧
        t.groups = s.groups ∧ t.store = s.store ∧ t.peers = s.peers)

/-- A STATE frame of a peer that beats no CLAIMING entry creates or replaces that peer's entry, LIVE with the frame's claims,
and no other; a CLAIMING entry whose conflicting rectangles in the frame are all PENDING of lesser rank keeps its legs, its
stage and its timers. The peer is in the overlap set exactly when a HELD rectangle of the frame and a HELD one of the own claim
set share a cell that the exempt footprint does not hold: none for PARKED, the start footprint of the head's plan for LEG, of
the second entry's for NEXT_LEG. FLOOR_OVERLAP, here with REPORT severity, is raised exactly when the peer enters the set. An
only entry in ROUTING has its route tested again; with none the list and the own claim set stay (R13, R63, R72, R73, R74, R75,
R76, R79, R84, R85, R95, R157, R186). -/
def Obligations.StateFrameReplacesThePeerEntry : Prop :=
  ∀ (s : State) (h : Header) (p : StatePayload), hears s → fromOther h s → isPedestal (sourceOf h) = true →
    isPedestal s.control.number = true →
    (∀ e ∈ s.cues, e.stage = .claiming → ∀ q, e.plan = some q → ∀ l ∈ (chosenRoute q).legs, ∀ c ∈ payloadClaims p,
      meetsOutside l.rect c.rect (some q.startFootprint) = true →
        ∃ r : Rank, c.state = .pending r ∧
          (r.priority < e.priority ∨ (r.priority = e.priority ∧
            (r.retry < e.retry ∨ (r.retry = e.retry ∧ s.control.number ≤ sourceOf h))))) →
    (settingOf s .floorOverlap).severity = .report →
    let entry : PeerEntry := ⟨sourceOf h, .live, payloadClaims p⟩
    let overlaps := ∃ c ∈ payloadClaims p, c.state = .held ∧ ∃ o ∈ s.claims.own, o.claim.state = .held ∧
      ∃ x y, c.rect.holds x y ∧ o.claim.rect.holds x y ∧
        ∀ e q, (o.claim.kind = .leg ∧ s.cues[0]? = some e) ∨ (o.claim.kind = .nextLeg ∧ s.cues[1]? = some e) →
          e.plan = some q → ¬q.startFootprint.holds x y
    ∃ t, exec (.stateFrame h p) s = .next t ∧
      (∀ n, peerOf n t = if n = sourceOf h then some entry else peerOf n s) ∧
      (∀ n, n ∈ t.claims.overlap ↔ (n = sourceOf h ∧ overlaps) ∨ (n ≠ sourceOf h ∧ n ∈ s.claims.overlap)) ∧
      ((t.faults.get .floorOverlap).sticky = true ↔
        (s.faults.get .floorOverlap).sticky = true ∨ (overlaps ∧ sourceOf h ∉ s.claims.overlap)) ∧
      (∀ c, c ≠ .floorOverlap → t.faults.get c = s.faults.get c) ∧
      ((∀ e ∈ s.cues, e.stage ≠ .routing) → t.claims.own = s.claims.own ∧ t.cues = s.cues) ∧
      (∀ e q, s.cues = [e] → e.stage = .routing → e.plan = some q →
        (allBlocked q (obstacles t) → t.cues = [e] ∧ t.claims.own = s.claims.own) ∧
        ∀ i r, firstFree q (obstacles t) i r →
          t.cues =
            [{ e with
              plan := some { q with chosen := some i }, stage := if r.legs = [] then .claimed else .claiming }] ∧
          t.claims.own = s.claims.own ++ pendingClaims .leg ⟨e.priority, e.retry⟩ r.legs) ∧
      t.claims.settleTimer = s.claims.settleTimer ∧ t.claims.claimWaitTimer = s.claims.claimWaitTimer ∧
      t.control = s.control ∧ t.profile = s.profile ∧ t.port = s.port ∧ t.store = s.store ∧ t.groups = s.groups ∧
      t.tally = s.tally

/-- Two pending claims of different stations are ordered by priority, then retry count, then the lower pedestal number, and
exactly one of the two stations loses (R74, R79). -/
def Obligations.ExactlyOneOfTwoPendingClaimsLoses : Prop :=
  ∀ (a b : Rank) (m n : Nat) (c d : Claim), m ≠ n → c.state = .pending b → d.state = .pending a →
    (beats a m c n = true ↔
      a.priority < b.priority ∨ (a.priority = b.priority ∧ (a.retry < b.retry ∨ (a.retry = b.retry ∧ n < m)))) ∧
    (beats a m c n = true ↔ beats b n d m = false)

/-- The CLAIMING head with a single route candidate loses to a heard STATE frame that holds a rectangle in conflict with one
of its legs, HELD or of greater rank: its LEG rectangles leave the own claim set, its retry count rises to at most 15, the
settle timer stops and it is ROUTING. FLOOR_OVERLAP has REPORT severity here (R73, R76, R79, R80). -/
def Obligations.ClaimingEntryYieldsToGreaterRank : Prop :=
  ∀ (s : State) (h : Header) (q : StatePayload) (e : CueEntry) (p : Plan) (r : Route) (l : Leg) (c : Claim),
    hears s → fromOther h s → isPedestal (sourceOf h) = true → isPedestal s.control.number = true →
    (settingOf s .floorOverlap).severity = .report → s.cues = [e] → e.stage = .claiming → e.plan = some p →
    p.candidates = [r] → p.chosen = some 0 → l ∈ r.legs → c ∈ payloadClaims q →
    meetsOutside l.rect c.rect (some p.startFootprint) = true →
    c.state = .held ∨ beats ⟨e.priority, e.retry⟩ s.control.number c (sourceOf h) = true →
    ∃ t, exec (.stateFrame h q) s = .next t ∧
      t.cues =
        [{ e with retry := min 15 (e.retry + 1), plan := some { p with chosen := none }, stage := .routing }] ∧
      t.claims.own = s.claims.own.filter (fun o => o.claim.kind != .leg) ∧ t.claims.settleTimer = false ∧
      t.claims.claimWaitTimer = s.claims.claimWaitTimer ∧
      peerOf (sourceOf h) t = some ⟨sourceOf h, .live, payloadClaims q⟩ ∧ t.control = s.control ∧
      t.profile = s.profile ∧ t.port = s.port ∧ t.store = s.store ∧ t.groups = s.groups ∧ t.tally = s.tally

/-! ### Going online, joining, restart (chapter 11) -/

/-- ONLINE enters JOINING exactly when the station is OFFLINE with a valid configuration, the position read ended and the
identity conflict clear: the ONLINE pin and drive enable are asserted, the join timer and the servo period timer start, and
the first exchange sends the last setpoints back. Else it is ignored. It draws no report and leaves the STATE marker (R10,
R130, R179). -/
def Obligations.OnlineEntersJoining : Prop :=
  ∀ (s : State) (h : Header), takenFromCue h s →
    let may := s.control.station = .offline ∧ s.control.config ≠ none ∧ s.control.readEnded = true ∧
      s.control.identityConflict = false
    (may →
      exec (.online h) s =
        .next { endSpent s with
          control := { s.control with station := .joining, onlinePin := true, driveEnable := true, joinTimer := true }
          port := { s.port with
            servoTimer := true
            exchange := some ⟨s.port.lastSetpoint, everyAxis none⟩
            requests := Axis.all.map fun a => .setpoint a (s.port.lastSetpoint.get a) } }) ∧
    (¬may → exec (.online h) s = .next (endSpent s))

/-- RESTART is ignored in OFFLINE. With motion IDLE it takes effect at once: the station is JOINING with the join timer
started and drive enable asserted, and the bus interface, the peer table, the cue list, the claims, the groups, the motion
and the fault flags are cleared, while the setpoints, the store, the tally and the rate stay. With a stop in progress it
waits; with a move running or held it begins a stop of kind RESTART, the head ending CANCELLED, and waits (R154, R182,
R183). The cleared cursor's next number 0, profile time 0 and leg-1 mark 'no' are the model's choice (log 4). -/
def Obligations.RestartTakesEffectOrBeginsAStop : Prop :=
  ∀ (s : State) (h : Header), takenFromCue h s →
    (s.control.station = .offline → exec (.restart h) s = .next (endSpent s)) ∧
    (s.control.station ≠ .offline → s.profile.motion = .idle →
      exec (.restart h) s =
        .next { s with
          control := { s.control with
            station := .joining, joinTimer := true, restartPending := false, driveEnable := true, faultPin := false }
          bus := State.reset.bus
          peers := []
          cues := []
          claims := State.reset.claims
          groups := State.reset.groups
          profile := { State.reset.profile with rate := s.profile.rate }
          faults := noFaults }) ∧
    (s.control.station ≠ .offline → s.profile.motion = .stopping →
      exec (.restart h) s = .next { endSpent s with control := { s.control with restartPending := true } }) ∧
    (∀ e rest, s.control.station ≠ .offline → s.profile.motion = .running ∨ s.profile.motion = .held →
      s.cues = e :: rest →
      ∃ t, exec (.restart h) s = .next t ∧ t.control = { s.control with restartPending := true } ∧
        t.profile = { s.profile with motion := .stopping, stopKind := some .restart } ∧
        t.cues = { e with ending := some (e.ending.getD .cancelled) } :: rest ∧
        t.bus.stateMarker = (s.bus.stateMarker || onBus s) ∧ t.bus.reportFifo = s.bus.reportFifo ∧
        t.port.lastSetpoint = s.port.lastSetpoint ∧ t.claims = s.claims ∧ t.groups = s.groups ∧ t.store = s.store ∧
        t.faults = s.faults ∧ t.peers = s.peers ∧ t.tally = s.tally)

/-- The join timer's expiry in JOINING, with no peer known, an empty list and no move: PARKED at the last setpoints is the own
claim set, the STATE marker is set and the heartbeat timer runs; the station is ACTIVE, or, with a STOP-severity flag set,
in FAULT_STOP with the FAULT pin asserted and drive enable deasserted. With the timer stopped nothing happens (R91, R149,
R168, R180). -/
def Obligations.JoinTimerEntersActive : Prop :=
  ∀ s : State, hears s →
    (s.control.joinTimer = false → exec .joinTimerExpiry s = .next s) ∧
    (s.control.joinTimer = true → s.control.station = .joining → s.peers = [] → s.cues = [] → s.profile.motion = .idle →
      let fault := ∃ c, (settingOf s c).severity = .stop ∧ (s.faults.get c).sticky = true
      let parked : OwnClaim :=
        ⟨⟨footprint (configOf s).halfWidth (floorPoint s.port.lastSetpoint), .parked, .held⟩, 0⟩
      let bus := { s.bus with stateMarker := true, heartbeat := true }
      let claims := { s.claims with own := [parked] }
      (¬fault →
        exec .joinTimerExpiry s =
          .next { s with
            control := { s.control with station := .active, joinTimer := false }, bus := bus, claims := claims }) ∧
      (fault →
        exec .joinTimerExpiry s =
          .next { s with
            control := { s.control with
              station := .faultStop, joinTimer := false, faultPin := true, driveEnable := false }
            bus := bus
            claims := claims }))

/-! ### Group moves (chapter 6) -/

/-- A readiness heard for the only record, COLLECTING, from a member: it is recorded in the member's slot over an earlier one.
While a slot is missing nothing else changes; the last one is the start event: the greatest N and G recorded become common,
the record is STARTING, the group wait timer stops, the start delay timer runs with the common G and the entry's plan is
re-split to the common N (R64, R99, R100, R104). -/
def Obligations.ReadyIsRecordedAndStartsTheGroup : Prop :=
  ∀ (s : State) (h : Header) (p : ReadyPayload) (r : GroupRecord),
    hears s → fromOther h s → s.groups.records = [r] → r.group = p.group → r.state = .collecting →
    p.flags.getLsbD 0 = false → (∃ m ∈ r.slots, m.number = sourceOf h) →
    let slots := r.slots.map fun m =>
      if m.number = sourceOf h then { m with ready := some (p.duration.toNat, p.delay.toNat) } else m
    ((∃ m ∈ slots, m.ready = none) →
      exec (.ready h p) s =
        .next { endSpent s with groups := { s.groups with records := [{ r with slots := slots }] } }) ∧
    (∀ e, (∀ m ∈ slots, m.ready ≠ none) → s.cues = [e] → e.group = some r.group →
      ∃ (n g : Nat),
        exec (.ready h p) s =
          .next { endSpent s with
            cues := [{ e with plan := e.plan.map fun q => resplit q n }]
            groups :=
              { records := [{ r with slots := slots, state := .starting, commonN := some n, commonG := some g }]
                waitTimer := false, startDelay := some g } } ∧
        (∃ m ∈ slots, ∃ g', m.ready = some (n, g')) ∧ (∃ m ∈ slots, ∃ n', m.ready = some (n', g)) ∧
        ∀ m ∈ slots, ∀ n' g', m.ready = some (n', g') → n' ≤ n ∧ g' ≤ g)

/-- The only entry in GROUP_WAIT with its record COLLECTING and no peer known. A withdrawal heard from a member fails it with
GROUP_ABANDONED: its readiness leaves the READY FIFO, or, being in transmission, stays to finish and is marked, so that no
record takes it. The group wait timer's expiry fails it with GROUP_TIMEOUT and places a withdrawal: in the place of its
readiness that is not in transmission, else behind, the readiness in transmission being marked; a full FIFO first discards its
oldest withdrawal that is not in transmission. Either way its record, its LEG rectangles and the group timers go (R49, R102,
R106, R107, R108). -/
def Obligations.GroupEndsWithoutAStart : Prop :=
  ∀ (s : State) (e : CueEntry) (r : GroupRecord) (sent later : List QueuedReady),
    hears s → s.cues = [e] → e.stage = .groupWait → e.group = some r.group → s.groups.records = [r] →
    r.state = .collecting → s.peers = [] → s.bus.readyFifo = sent ++ later → sent.length = readySent s →
    let gone := fun t : State =>
      t.cues = [] ∧ t.groups = ⟨[], false, none⟩ ∧ t.claims.own = s.claims.own.filter (fun o => o.claim.kind != .leg) ∧
        t.claims.settleTimer = false ∧ t.claims.claimWaitTimer = false ∧ t.control = s.control ∧
        t.profile = s.profile ∧ t.port = s.port ∧ t.store = s.store ∧ t.faults = s.faults ∧ t.tally = s.tally
    let own := fun q : QueuedReady => q.group = r.group ∧ q.withdrawn = false
    let marked := sent.map fun q => if own q then { q with orphan := true } else q
    let withdrawal : QueuedReady := ⟨r.group, e.tag, 0, 0, true, false⟩
    (∀ (h : Header) (p : ReadyPayload), fromOther h s → p.group = r.group → p.flags.getLsbD 0 = true →
      (∃ m ∈ r.slots, m.number = sourceOf h) →
      ∃ t, exec (.ready h p) s = .next t ∧ gone t ∧
        t.bus.readyFifo = marked ++ later.filter (fun q => decide ¬own q) ∧
        (s.bus.reportFifo.length < 8 →
          t.bus.reportFifo = s.bus.reportFifo ++ [.cue e.tag (.failed .groupAbandoned)])) ∧
    (s.groups.waitTimer = true →
      ∃ t, exec .groupWaitExpiry s = .next t ∧ gone t ∧
        (∀ before q after, later = before ++ q :: after → (∀ x ∈ before, ¬own x) → own q →
          t.bus.readyFifo = sent ++ before ++ withdrawal :: after) ∧
        ((∀ q ∈ later, ¬own q) →
          (s.bus.readyFifo.length < 4 → t.bus.readyFifo = marked ++ later ++ [withdrawal]) ∧
          ∀ kept w after, later = kept ++ w :: after → s.bus.readyFifo.length = 4 →
            (∀ q ∈ kept, q.withdrawn = false) → w.withdrawn = true →
            t.bus.readyFifo = marked ++ kept ++ after ++ [withdrawal]) ∧
        (s.bus.reportFifo.length < 8 →
          t.bus.reportFifo = s.bus.reportFifo ++ [.cue e.tag (.failed .groupTimeout)])) ∧
    (s.groups.waitTimer = false → exec .groupWaitExpiry s = .next s)

/-- The start delay timer's expiry in ACTIVE with the only entry in GROUP_WAIT, its record STARTING and no peer known: the
head starts its re-split plan whatever the on-air view is, with the rate at its target, and the record becomes ENDED; a route
with legs releases PARKED, one without keeps it. With a common N of 0 the move completes at that event: COMPLETED follows
STARTED, the list is empty, the record is removed and PARKED is laid. With the timer stopped nothing happens (R44, R67, R86,
R105, R110, R118). -/
def Obligations.StartDelayExpiryStartsTheMove : Prop :=
  ∀ (s : State), hears s →
    (s.groups.startDelay = none → exec .startDelayExpiry s = .next s) ∧
    (∀ (e : CueEntry) (r : GroupRecord) (c : ShotContent) (p : Plan) (g : Nat),
      s.groups.startDelay = some g → s.control.station = .active → s.cues = [e] → e.stage = .groupWait →
      e.group = some r.group → s.groups.records = [r] → r.state = .starting → e.copy = some c → e.plan = some p →
      s.profile.motion = .idle → s.peers = [] →
      ∃ t, exec .startDelayExpiry s = .next t ∧ t.control = s.control ∧ t.port.lastSetpoint = s.port.lastSetpoint ∧
        t.store = s.store ∧ t.faults = s.faults ∧ t.tally = s.tally ∧
        (1 ≤ p.common.getD p.duration →
          t.cues = [{ e with stage := .running }] ∧
          t.groups = { s.groups with records := [{ r with state := .ended }], startDelay := none } ∧
          t.profile = { s.profile with
            motion := if s.profile.hold then .held else .running
            plan := some ⟨p, chosenRoute p, p.common.getD p.duration, c.livePermitted⟩
            time := 0
            rate :=
              if s.profile.hold then 0
              else if s.tally.onAir && !c.livePermitted then (configOf s).liveRate
              else 256
            stopKind := none
            leg1Passed := false } ∧
          t.claims = { s.claims with
            own :=
              if (chosenRoute p).legs = [] then s.claims.own
              else s.claims.own.filter fun o => o.claim.kind != .parked } ∧
          (s.bus.reportFifo.length < 8 → t.bus.reportFifo = s.bus.reportFifo ++ [.cue e.tag .started])) ∧
        (p.common.getD p.duration = 0 →
          t.cues = [] ∧ t.groups = { s.groups with records := [], startDelay := none } ∧
          t.profile.motion = .idle ∧ t.profile.plan = none ∧
          t.claims = { s.claims with own := parkedAt s s.port.lastSetpoint :: relabelled s } ∧
          (s.bus.reportFifo.length < 7 →
            t.bus.reportFifo = s.bus.reportFifo ++ [.cue e.tag .started, .cue e.tag .completed])))

/-! ### Transmission and claim timers (chapters 5 and 9) -/

/-- A transmission begins when the station is ACTIVE or FAULT_STOP, not spent, with none in progress, and the bus's idle time
has reached 8 + 32·class + number µs for its highest non-empty class: the READY FIFO's head, then STATE as the state stands,
then the report FIFO's head, then SHOT_DATA. The frame stays where it is held, but a STATE frame clears the marker; BUS_DE is
asserted (R145, R148, R150, R151, R184). -/
def Obligations.TransmissionStartSendsTheHighestClass : Prop :=
  ∀ (s : State) (idle : Nat), hears s →
    let begins := fun (cls : Nat) (f : OutFrame) (marker : Bool) =>
      exec (.transmissionStart idle) s =
        if 8 + 32 * cls + s.control.number ≤ idle then
          .next { s with
            bus := { s.bus with
              transmission := some ⟨f, frameBytes s.control.number f, false, false, false⟩
              stateMarker := marker
              driverEnable := true } }
        else .next s
    (onBus s = false ∨ s.bus.spent = true ∨ s.bus.transmission ≠ none → exec (.transmissionStart idle) s = .next s) ∧
    (onBus s = true → s.bus.spent = false → s.bus.transmission = none →
      (∀ r rest, s.bus.readyFifo = r :: rest → begins 0 (.ready r) s.bus.stateMarker) ∧
      (s.bus.readyFifo = [] → s.bus.stateMarker = true →
        begins 0
          (.state
            { station := s.control.station, motion := s.profile.motion, onAir := s.tally.onAir
              floorX := s.port.lastSetpoint.x, floorY := s.port.lastSetpoint.y
              claims := s.claims.own.map OwnClaim.claim
              head := s.cues.head?.map fun e => (e.tag, e.stage)
              listLength := s.cues.length, faults := s.faults, reportsLost := s.bus.reportsLost
              hold := s.profile.hold })
          false) ∧
      (s.bus.readyFifo = [] → s.bus.stateMarker = false →
        (∀ r rest, s.bus.reportFifo = r :: rest → begins 1 (.report r) false) ∧
        (s.bus.reportFifo = [] →
          (s.bus.cursor.remaining = 0 → exec (.transmissionStart idle) s = .next s) ∧
          (0 < s.bus.cursor.remaining →
            (127 < s.bus.cursor.next → begins 2 (.shotData s.bus.cursor.next .noSuchShot emptyBody) false) ∧
            (s.bus.cursor.next ≤ 127 → recordOf s.store s.bus.cursor.next = .empty →
              begins 2 (.shotData s.bus.cursor.next .empty emptyBody) false) ∧
            (∀ c, s.bus.cursor.next ≤ 127 → recordOf s.store s.bus.cursor.next = .valid c →
              begins 2
                (.shotData s.bus.cursor.next .valid (((areaOf s.store.areas s.bus.cursor.next).drop 1).take 41))
                false)))))

/-- A transmission's completion makes the station spent, sets the abandon count to 0 and deasserts BUS_DE, and by its frame: a
report or a withdrawal leaves its FIFO; a SHOT_DATA advances the cursor, wrapping from 127 to 0, unless a READ_SHOT replaced
it (an emptied cursor's number 0 is the model's choice, log 4); a STATE frame restarts the heartbeat, clears reports-lost when
it carried the flag and none was lost since, and starts the settle timer when an entry is CLAIMING and the frame carried all
its pending rectangles (cells and rank, none added since the start, the kind not compared: the model's reading, log 25); a
readiness leaves its FIFO, and, its record COLLECTING, is recorded in the own slot: while another slot is missing nothing else
changes, and the last one is the start event. A marked readiness only leaves its FIFO (R27, R64, R78, R102, R103, R104, R144,
R147, R149, R152, R153). -/
def Obligations.TransmissionCompletionByFrame : Prop :=
  ∀ (s : State) (x : Transmission), hears s → s.bus.transmission = some x →
    let bus := { s.bus with transmission := none, spent := true, abandonCount := 0, driverEnable := false }
    (∀ r, x.frame = .report r →
      exec .transmissionCompletion s = .next { s with bus := { bus with reportFifo := s.bus.reportFifo.tail } }) ∧
    (∀ n status body, x.frame = .shotData n status body →
      exec .transmissionCompletion s =
        .next { s with
          bus := { bus with
            cursor :=
              if x.cursorReplaced then s.bus.cursor
              else if s.bus.cursor.remaining ≤ 1 then ⟨0, 0⟩
              else
                ⟨if s.bus.cursor.next = 127 then 0 else s.bus.cursor.next + 1, s.bus.cursor.remaining - 1⟩ } }) ∧
    (∀ f, x.frame = .state f →
      exec .transmissionCompletion s =
        .next { s with
          bus := { bus with
            heartbeat := true
            reportsLost := s.bus.reportsLost && (!f.reportsLost || x.reportDiscarded) }
          claims := { s.claims with
            settleTimer := s.claims.settleTimer ||
              decide ((∃ e ∈ s.cues, e.stage = .claiming) ∧ x.legsAdded = false ∧
                ∀ o ∈ s.claims.own, o.claim.state ≠ .held →
                  ∃ c ∈ f.claims, c.rect = o.claim.rect ∧ c.state = o.claim.state) } }) ∧
    (∀ r, x.frame = .ready r → r.withdrawn = true →
      exec .transmissionCompletion s = .next { s with bus := { bus with readyFifo := s.bus.readyFifo.tail } }) ∧
    (∀ r q rest, x.frame = .ready r → r.withdrawn = false → s.bus.readyFifo = q :: rest → q.orphan = true →
      exec .transmissionCompletion s = .next { s with bus := { bus with readyFifo := rest } }) ∧
    (∀ r q rest, x.frame = .ready r → r.withdrawn = false → s.bus.readyFifo = r :: rest → r.orphan = false →
      s.groups.records = [q] → q.group = r.group → q.state = .collecting →
      let slots := q.slots.map fun m =>
        if m.number = s.control.number then { m with ready := some (r.duration, r.delay) } else m
      ((∃ m ∈ slots, m.ready = none) →
        exec .transmissionCompletion s =
          .next { s with
            bus := { bus with readyFifo := rest }
            groups := { s.groups with records := [{ q with slots := slots }] } }) ∧
      ∀ e, (∀ m ∈ slots, m.ready ≠ none) → s.cues = [e] → e.group = some q.group →
        ∃ (n g : Nat),
          exec .transmissionCompletion s =
            .next { s with
              bus := { bus with readyFifo := rest }
              cues := [{ e with plan := e.plan.map fun p => resplit p n }]
              groups :=
                { records := [{ q with slots := slots, state := .starting, commonN := some n, commonG := some g }]
                  waitTimer := false, startDelay := some g } } ∧
          (slots ≠ [] →
            (∃ m ∈ slots, ∃ g', m.ready = some (n, g')) ∧ ∃ m ∈ slots, ∃ n', m.ready = some (n', g)) ∧
          ∀ m ∈ slots, ∀ n' g', m.ready = some (n', g') → n' ≤ n ∧ g' ≤ g)

/-- An abandoned transmission leaves its frame where it was held, a STATE frame setting the marker again, a marked readiness
leaving its FIFO unsent, deasserts BUS_DE and counts; the sixteenth in a row raises BUS_CONTENTION, here with REPORT severity,
and sets the count to 0. 104 µs of idle bus end the spent condition, and the heartbeat timer's expiry sets the STATE marker;
what is not running does nothing (R102, R148, R149, R152, R153). That the heartbeat timer stops at its expiry is the model's
reading (log 17). -/
def Obligations.AbandonKeepsTheFrame : Prop :=
  ∀ (s : State), hears s →
    let bus := { s.bus with transmission := none, driverEnable := false }
    (s.bus.transmission = none → exec .abandon s = .next s) ∧
    (∀ x, s.bus.transmission = some x → s.bus.abandonCount < 15 →
      (∀ f, x.frame = .state f →
        exec .abandon s =
          .next { s with
            bus := { bus with
              stateMarker := s.bus.stateMarker || onBus s, abandonCount := s.bus.abandonCount + 1 } }) ∧
      (∀ r q rest, x.frame = .ready r → s.bus.readyFifo = q :: rest →
        exec .abandon s =
          .next { s with
            bus := { bus with
              readyFifo := if q.orphan then rest else s.bus.readyFifo
              abandonCount := s.bus.abandonCount + 1 } }) ∧
      (∀ r, x.frame = .report r →
        exec .abandon s = .next { s with bus := { bus with abandonCount := s.bus.abandonCount + 1 } }) ∧
      (∀ n status body, x.frame = .shotData n status body →
        exec .abandon s = .next { s with bus := { bus with abandonCount := s.bus.abandonCount + 1 } })) ∧
    (∀ x, s.bus.transmission = some x → s.bus.abandonCount = 15 → (settingOf s .busContention).severity = .report →
      ∃ t, exec .abandon s = .next t ∧ t.bus.abandonCount = 0 ∧ t.bus.transmission = none ∧
        t.faults.get .busContention = ⟨true, (s.faults.get .busContention).sticky⟩ ∧
        s.bus.reportFifo <+: t.bus.reportFifo ∧ t.bus.spent = s.bus.spent ∧ t.bus.cursor = s.bus.cursor ∧
        t.control = s.control ∧ t.cues = s.cues ∧ t.claims = s.claims ∧ t.profile = s.profile ∧ t.groups = s.groups) ∧
    exec .spentIdleExpiry s = .next { s with bus := { s.bus with spent := false } } ∧
    (s.bus.heartbeat = false → exec .heartbeatExpiry s = .next s) ∧
    (s.bus.heartbeat = true →
      exec .heartbeatExpiry s =
        .next { s with bus := { s.bus with heartbeat := false, stateMarker := s.bus.stateMarker || onBus s } })

/-- The settle timer's expiry makes the CLAIMING head or second entry CLAIMED and its LEG or NEXT_LEG rectangles HELD, and stops
both claim timers. A second entry, and a head not taken, stop there. A taken head of a shot not live-permitted is deferred on
air, DEFERRED reported once. A taken one not deferred starts at that event, STARTED reported, PARKED released and a QUEUED
second entry pre-planned (ACTIVE, motion IDLE, a route with legs, N at least 1), or, of a group, enters GROUP_WAIT with its
readiness queued and the group wait timer started. The claim wait timer's expiry fails a ROUTING or CLAIMING only entry, of no
group, with FLOOR_TIMEOUT, removes its LEG rectangles and sets the STATE marker in ACTIVE and FAULT_STOP, whatever rectangles it
had. No peer is known; a stopped timer does nothing (R43, R44, R45, R46, R49, R77, R81, R86, R101, R148). -/
def Obligations.ClaimTimersSettleOrFail : Prop :=
  ∀ (s : State) (e : CueEntry) (rest : List CueEntry), hears s →
    let claimed : CueEntry := { e with stage := .claimed }
    let kept := fun t : State =>
      t.control = s.control ∧ t.store = s.store ∧ t.faults = s.faults ∧ t.tally = s.tally ∧ t.peers = s.peers
    let still := fun t : State => t.profile = s.profile ∧ t.port = s.port
    (s.claims.settleTimer = false → exec .settleExpiry s = .next s) ∧
    (s.claims.claimWaitTimer = false → exec .claimWaitExpiry s = .next s) ∧
    (s.claims.settleTimer = true → s.cues = e :: rest → e.stage = .claiming → s.peers = [] →
      (e.take = false →
        ∃ t, exec .settleExpiry s = .next t ∧ t.cues = claimed :: rest ∧ t.claims = settledClaims .leg s ∧
          ((∃ o ∈ s.claims.own, o.claim.kind = .leg ∧ o.claim.state ≠ .held) → onBus s = true →
            t.bus.stateMarker = true) ∧
          t.bus.reportFifo = s.bus.reportFifo ∧ t.groups = s.groups ∧ kept t ∧ still t) ∧
      ∀ c p, e.take = true → e.copy = some c → e.plan = some p →
        (c.livePermitted = false → s.tally.onAir = true →
          ∃ t, exec .settleExpiry s = .next t ∧ t.cues = { claimed with deferralReported := true } :: rest ∧
            t.claims = settledClaims .leg s ∧
            (s.bus.reportFifo.length < 8 →
              t.bus.reportFifo = s.bus.reportFifo ++ if e.deferralReported then [] else [.cue e.tag .deferred]) ∧
            t.groups = s.groups ∧ kept t ∧ still t) ∧
        (c.livePermitted = true ∨ s.tally.onAir = false →
          (∀ g, e.mode = .group → e.group = some g → s.bus.readyFifo.length < 4 →
            ∃ t, exec .settleExpiry s = .next t ∧ t.cues = { e with stage := .groupWait } :: rest ∧
              t.claims = settledClaims .leg s ∧ t.groups = { s.groups with waitTimer := true } ∧
              t.bus.readyFifo =
                s.bus.readyFifo ++ [⟨g, e.tag, p.duration, (configOf s).startDelay, false, false⟩] ∧
              t.bus.reportFifo = s.bus.reportFifo ∧ kept t ∧ still t) ∧
          (e.mode ≠ .group → s.control.station = .active → s.profile.motion = .idle → s.control.restartPending = false →
            (chosenRoute p).legs ≠ [] → 1 ≤ p.common.getD p.duration →
            let running : CueEntry := { e with stage := .running }
            ∃ u, kept u ∧ u.cues = running :: rest ∧ u.profile = startedProfile s s.tally.onAir c p ∧
              u.port = { s.port with blanking := freshWindow s } ∧ u.groups = s.groups ∧
              u.bus.readyFifo = s.bus.readyFifo ∧
              u.claims = { settledClaims .leg s with
                own := (settledClaims .leg s).own.filter fun o => o.claim.kind != .parked } ∧
              (s.bus.reportFifo.length < 8 → u.bus.reportFifo = s.bus.reportFifo ++ [.cue e.tag .started]) ∧
              (rest = [] → exec .settleExpiry s = .next u) ∧
              ∀ f more, rest = f :: more → f.stage = .queued →
                ∃ t, exec .settleExpiry s = .next t ∧ planningMakes p.target .nextLeg [running] f more u t))) ∧
    (∀ d, s.claims.settleTimer = true → s.cues = d :: e :: rest → d.stage ≠ .claiming → e.stage = .claiming →
      s.peers = [] →
      ∃ t, exec .settleExpiry s = .next t ∧ t.cues = d :: claimed :: rest ∧ t.claims = settledClaims .nextLeg s ∧
        ((∃ o ∈ s.claims.own, o.claim.kind = .nextLeg ∧ o.claim.state ≠ .held) → onBus s = true →
          t.bus.stateMarker = true) ∧
        t.bus.reportFifo = s.bus.reportFifo ∧ t.groups = s.groups ∧ kept t ∧ still t) ∧
    (s.claims.claimWaitTimer = true → s.cues = [e] → e.stage = .routing ∨ e.stage = .claiming → e.group = none →
      s.peers = [] →
      ∃ t, exec .claimWaitExpiry s = .next t ∧ t.cues = [] ∧
        t.claims = { s.claims with
          own := s.claims.own.filter fun o => o.claim.kind != .leg, settleTimer := false, claimWaitTimer := false } ∧
        (s.bus.reportFifo.length < 8 → t.bus.reportFifo = s.bus.reportFifo ++ [.cue e.tag (.failed .floorTimeout)]) ∧
        t.bus.stateMarker = (s.bus.stateMarker || onBus s) ∧
        t.control = s.control ∧ t.profile = s.profile ∧ t.port = s.port ∧ t.store = s.store ∧ t.groups = s.groups ∧
        t.faults = s.faults ∧ t.tally = s.tally)

/-! ### Invariants of every step -/

/-- The reset state meets every invariant below. -/
def Obligations.ResetMeetsTheInvariants : Prop :=
  storeSound State.reset ∧ withinCapacity State.reset ∧ distinctNames State.reset ∧ rateInRange State.reset ∧
    recurWithinSticky State.reset ∧ markerOnlyOnBus State.reset ∧ driveEnableRight State.reset ∧
    stationTimersRight State.reset ∧ statusPinsRight State.reset ∧ resetPinRight State.reset ∧ peersRight State.reset ∧
    floorAgreement State.reset

/-- Every step keeps the shot store's canonical form and the capacities of the lists, FIFOs and counters, keeps cue tags and
group ids distinct, and keeps the peer table: at most 15 entries, ascending, one for a number and none for the own. And from a
state whose join and servo timers run where they may (StepKeepsStationOutputs states that of every step), it keeps the floor
agreement: the stages by place, the own claim set of at most 4 rectangles in the order of R70's table, the plans, groups
and move that go with it, the overlap set as exactly the peers that overlap, and the footprint at the floor setpoint within the
HELD rectangles (R16, R23, R26, R32, R33, R70, R84, R90, R97, R102, R145, R153, R156). -/
def Obligations.StepKeepsMemoryAndCapacities : Prop :=
  ∀ s t : State, step s = .next t →
    (storeSound s → storeSound t) ∧ (withinCapacity s → withinCapacity t) ∧ (distinctNames s → distinctNames t) ∧
      (peersRight s → peersRight t) ∧ (stationTimersRight s → floorAgreement s → floorAgreement t)

/-- Every step keeps the rate within 0 to 256 and the retry counts within 0 to 15, keeps recur flags within sticky ones, and
keeps the STATE marker clear outside ACTIVE and FAULT_STOP (R31, R112, R148, R163, R164). -/
def Obligations.StepKeepsRatesFlagsAndMarker : Prop :=
  ∀ s t : State, step s = .next t →
    (rateInRange s → rateInRange t) ∧ (recurWithinSticky s → recurWithinSticky t) ∧ (markerOnlyOnBus s → markerOnlyOnBus t)

/-- Every step keeps drive enable, the join and servo timers and the status pins right for the station state, and the reset
pin's level right for the phase (R5, R130, R174, R175, R184). -/
def Obligations.StepKeepsStationOutputs : Prop :=
  ∀ s t : State, step s = .next t →
    (resetPinRight s → resetPinRight t) ∧
      (driveEnableRight s → stationTimersRight s → statusPinsRight s →
        driveEnableRight t ∧ stationTimersRight t ∧ statusPinsRight t)

/-- While the part hears, the station state changes at the events of R174's table and at no other: ONLINE or the end of the
position read, a duplicate-station event while JOINING, the join timer's expiry, a RESTART taking effect, a raise of a
STOP-severity class while ACTIVE, which leaves its sticky flag set, its recur flag too when the sticky one stood before, and
CLEAR_FAULTS or a fault stop's completion with no STOP-severity flag left. The join timer's expiry enters ACTIVE with no
STOP-severity flag set and FAULT_STOP with one (R166, R168, R169, R171, R174). -/
def Obligations.StationStateChangesOnlyByItsTable : Prop :=
  ∀ (s t : State) (c : Instr), hears s → stationTimersRight s → exec c s = .next t → hears t →
    let here := s.control.station
    let there := t.control.station
    there = here ∨
      (here = .offline ∧ there = .joining ∧ ((∃ h, c = .online h) ∨ ∃ r, c = .driveReply r)) ∨
      (here = .joining ∧ there = .offline ∧
        (c = .duplicateStationEvent ∨ ∃ h, frameHeader c = some h ∧ sourceOf h = s.control.number)) ∨
      (here = .joining ∧ there = .active ∧ c = .joinTimerExpiry ∧ stopFlagSet t = false) ∨
      (here = .joining ∧ there = .faultStop ∧ c = .joinTimerExpiry ∧ stopFlagSet t = true) ∨
      (here ≠ .offline ∧ there = .joining ∧ ((∃ h, c = .restart h) ∨ c = .servoPeriodExpiry)) ∨
      (here = .active ∧ there = .faultStop ∧
        ∃ k, isStop s k = true ∧ (t.faults.get k).sticky = true ∧
          ((s.faults.get k).sticky = true → (t.faults.get k).recur = true)) ∨
      (here = .faultStop ∧ there = .active ∧ stopFlagSet t = false ∧
        ((∃ h w, c = .clearFaults h w) ∨ c = .servoPeriodExpiry))

/-! ### Formats and arithmetic (chapters 4 and 12) -/

/-- What a STORE_SHOT writes is what a planning read finds: the stored form of a body that passes the tests passes the
start-up check and reads back as the body's content (R16, R19, R29, R187). -/
def Obligations.StoredRecordReadsBack : Prop :=
  ∀ b : RecordBody, bodySound b = true →
    (storedForm (.valid (bodyContent b))).length = 44 ∧ areaSound (storedForm (.valid (bodyContent b))) = true ∧
      areaRecord (storedForm (.valid (bodyContent b))) = .valid (bodyContent b)

/-- A STATE frame that one station sends is heard by another as that STATE frame, from its number, to all pedestals, with
exactly the claims it carries: cells 0 to 31, priority 0 to 3, retry count 0 to 15 (R142, R143, R150, R186, chapter 12.3). -/
def Obligations.SentStateFrameIsReceived : Prop :=
  ∀ (n : Nat) (f : StateFrame), n < 32 → f.claims.length ≤ 4 →
    (∀ c ∈ f.claims, c.rect.x0 ≤ c.rect.x1 ∧ c.rect.x1 ≤ 31 ∧ c.rect.y0 ≤ c.rect.y1 ∧ c.rect.y1 ≤ 31 ∧
      ∀ r, c.state = .pending r → r.priority ≤ 3 ∧ r.retry ≤ 15) →
    ∃ h p, receive (frameBytes n (.state f)) = .stateFrame h p ∧ sourceOf h = n ∧ destOf h = 30 ∧
      payloadClaims p = f.claims ∧ p.wellFormed = true

/-- The minimum duration: 0 for a distance of 0; else the greater of the smallest N with 3·V·N at least 4·D and the smallest N
with 3·Aq·N² at least 4096·D (R54). -/
def Obligations.MinimumDurationIsLeast : Prop :=
  ∀ (d : Nat) (l : AxisLimits), 1 ≤ l.speed → 1 ≤ l.accel →
    (d = 0 → minDuration d l = 0) ∧
    (1 ≤ d → ∃ tv ta, minDuration d l = max tv ta ∧ 1 ≤ max tv ta ∧
      (4 * d ≤ 3 * l.speed * tv ∧ ∀ n, 4 * d ≤ 3 * l.speed * n → tv ≤ n) ∧
      (4096 * d ≤ 3 * l.accel * ta ^ 2 ∧ ∀ n, 4096 * d ≤ 3 * l.accel * n ^ 2 → ta ≤ n))

/-- The setpoints of a plan as built, whichever candidate is chosen: the split sums to N, every axis stands at its start at
profile time 0, at its target at the move's end, and between the two at every time (R60, R65, R66, R67). -/
def Obligations.SetpointsRunFromStartToTarget : Prop :=
  ∀ (cfg : Configuration) (starts : PerAxis Position) (c : ShotContent) (i : Nat) (r : Route) (live : Bool),
    (∀ a, 1 ≤ (cfg.axes.get a).speed ∧ 1 ≤ (cfg.axes.get a).accel) →
    let plan := buildPlan cfg starts c
    plan.candidates[i]? = some r →
    let run := runningPlanOf { plan with chosen := some i } live
    (r.legs ≠ [] → r.n1 + r.n2 = plan.duration) ∧
    ∀ a,
      (1 ≤ plan.duration → setpointAt run 0 a = starts.get a) ∧
      setpointAt run (moveEnd run) a = plan.target.get a ∧
      ∀ t, t ≤ moveEnd run →
        min (starts.get a).toNat (plan.target.get a).toNat ≤ (setpointAt run t a).toNat ∧
        (setpointAt run t a).toNat ≤ max (starts.get a).toNat (plan.target.get a).toNat
end

