-- ==== Sys2Proof/Laws/State.lean ====
section
/-! SUPPORT. The small lemmas of the state's updates: what each leaves of each field, so that no proof unfolds a record
update. -/
namespace Sys2Proof

@[simp] theorem PerAxis.get_ofFn {α : Type} (f : Axis → α) (a : Axis) : (PerAxis.ofFn f).get a = f a := by cases a <;> rfl

@[simp] theorem PerAxis.get_set_self {α : Type} (p : PerAxis α) (a : Axis) (v : α) : (p.set a v).get a = v := by
  cases a <;> rfl

theorem PerAxis.get_set_of_ne {α : Type} (p : PerAxis α) {a b : Axis} (v : α) (h : b ≠ a) : (p.set a v).get b = p.get b := by
  cases a <;> cases b <;> first | rfl | exact absurd rfl h

theorem PerAxis.ext_get {α : Type} {p q : PerAxis α} (h : ∀ a, p.get a = q.get a) : p = q := by
  cases p
  cases q
  have hx := h .x
  have hy := h .y
  have he := h .elevation
  have hp := h .pan
  have ht := h .tilt
  have hz := h .zoom
  have hf := h .focus
  simp only [PerAxis.get] at hx hy he hp ht hz hf
  subst hx hy he hp ht hz hf
  rfl

@[simp] theorem PerClass.get_ofFn {α : Type} (f : FaultClass → α) (c : FaultClass) : (PerClass.ofFn f).get c = f c := by
  cases c <;> rfl

@[simp] theorem PerClass.get_set {α : Type} (p : PerClass α) (c d : FaultClass) (v : α) :
    (p.set c v).get d = if d = c then v else p.get d := by
  simp [PerClass.set]

theorem PerClass.ext_get {α : Type} {p q : PerClass α} (h : ∀ c, p.get c = q.get c) : p = q := by
  cases p
  cases q
  have h0 := h .followingError
  have h1 := h .driveFault
  have h2 := h .duplicateStation
  have h3 := h .axisLimit
  have h4 := h .floorOverlap
  have h5 := h .peerLost
  have h6 := h .tallyLost
  have h7 := h .busContention
  have h8 := h .storeCorrupt
  simp only [PerClass.get] at h0 h1 h2 h3 h4 h5 h6 h7 h8
  subst h0 h1 h2 h3 h4 h5 h6 h7 h8
  rfl

theorem Axis.mem_all (a : Axis) : a ∈ Axis.all := by cases a <;> decide

theorem FaultClass.mem_all (c : FaultClass) : c ∈ FaultClass.all := by cases c <;> decide

namespace Machine

@[simp] theorem everyAxis_get {α : Type} (v : α) (a : Axis) : (everyAxis v).get a = v := by cases a <;> rfl

@[simp] theorem noFaults_get (c : FaultClass) : noFaults.get c = ⟨false, false⟩ := by cases c <;> rfl

/-! ### withPending -/

@[simp] theorem withPending_pending (s : State) (q : List Instr) : (s.withPending q).pending = q := rfl
@[simp] theorem withPending_control (s : State) (q : List Instr) : (s.withPending q).control = s.control := rfl
@[simp] theorem withPending_port (s : State) (q : List Instr) : (s.withPending q).port = s.port := rfl
@[simp] theorem withPending_bus (s : State) (q : List Instr) : (s.withPending q).bus = s.bus := rfl
@[simp] theorem withPending_tally (s : State) (q : List Instr) : (s.withPending q).tally = s.tally := rfl
@[simp] theorem withPending_peers (s : State) (q : List Instr) : (s.withPending q).peers = s.peers := rfl
@[simp] theorem withPending_store (s : State) (q : List Instr) : (s.withPending q).store = s.store := rfl
@[simp] theorem withPending_cues (s : State) (q : List Instr) : (s.withPending q).cues = s.cues := rfl
@[simp] theorem withPending_claims (s : State) (q : List Instr) : (s.withPending q).claims = s.claims := rfl
@[simp] theorem withPending_groups (s : State) (q : List Instr) : (s.withPending q).groups = s.groups := rfl
@[simp] theorem withPending_profile (s : State) (q : List Instr) : (s.withPending q).profile = s.profile := rfl
@[simp] theorem withPending_faults (s : State) (q : List Instr) : (s.withPending q).faults = s.faults := rfl

/-! ### setMarker: the STATE marker and nothing else -/

@[simp] theorem setMarker_control (s : State) : (setMarker s).control = s.control := by unfold setMarker; split <;> rfl
@[simp] theorem setMarker_port (s : State) : (setMarker s).port = s.port := by unfold setMarker; split <;> rfl
@[simp] theorem setMarker_tally (s : State) : (setMarker s).tally = s.tally := by unfold setMarker; split <;> rfl
@[simp] theorem setMarker_peers (s : State) : (setMarker s).peers = s.peers := by unfold setMarker; split <;> rfl
@[simp] theorem setMarker_store (s : State) : (setMarker s).store = s.store := by unfold setMarker; split <;> rfl
@[simp] theorem setMarker_cues (s : State) : (setMarker s).cues = s.cues := by unfold setMarker; split <;> rfl
@[simp] theorem setMarker_claims (s : State) : (setMarker s).claims = s.claims := by unfold setMarker; split <;> rfl
@[simp] theorem setMarker_groups (s : State) : (setMarker s).groups = s.groups := by unfold setMarker; split <;> rfl
@[simp] theorem setMarker_profile (s : State) : (setMarker s).profile = s.profile := by unfold setMarker; split <;> rfl
@[simp] theorem setMarker_faults (s : State) : (setMarker s).faults = s.faults := by unfold setMarker; split <;> rfl
@[simp] theorem setMarker_free (s : State) : (setMarker s).free = s.free := by unfold setMarker; split <;> rfl
@[simp] theorem setMarker_pending (s : State) : (setMarker s).pending = s.pending := by unfold setMarker; split <;> rfl
theorem setMarker_bus (s : State) :
    (setMarker s).bus = { s.bus with stateMarker := s.bus.stateMarker || onBus s } := by
  unfold setMarker
  split <;> rename_i h <;> simp [h]

/-! ### pushReport: the report FIFO, the reports-lost flag and the transmission's mark -/

@[simp] theorem pushReport_control (r : Report) (s : State) : (pushReport r s).control = s.control := by
  unfold pushReport; split <;> rfl
@[simp] theorem pushReport_port (r : Report) (s : State) : (pushReport r s).port = s.port := by
  unfold pushReport; split <;> rfl
@[simp] theorem pushReport_tally (r : Report) (s : State) : (pushReport r s).tally = s.tally := by
  unfold pushReport; split <;> rfl
@[simp] theorem pushReport_peers (r : Report) (s : State) : (pushReport r s).peers = s.peers := by
  unfold pushReport; split <;> rfl
@[simp] theorem pushReport_store (r : Report) (s : State) : (pushReport r s).store = s.store := by
  unfold pushReport; split <;> rfl
@[simp] theorem pushReport_cues (r : Report) (s : State) : (pushReport r s).cues = s.cues := by
  unfold pushReport; split <;> rfl
@[simp] theorem pushReport_claims (r : Report) (s : State) : (pushReport r s).claims = s.claims := by
  unfold pushReport; split <;> rfl
@[simp] theorem pushReport_groups (r : Report) (s : State) : (pushReport r s).groups = s.groups := by
  unfold pushReport; split <;> rfl
@[simp] theorem pushReport_profile (r : Report) (s : State) : (pushReport r s).profile = s.profile := by
  unfold pushReport; split <;> rfl
@[simp] theorem pushReport_faults (r : Report) (s : State) : (pushReport r s).faults = s.faults := by
  unfold pushReport; split <;> rfl
@[simp] theorem pushReport_free (r : Report) (s : State) : (pushReport r s).free = s.free := by
  unfold pushReport; split <;> rfl
@[simp] theorem pushReport_pending (r : Report) (s : State) : (pushReport r s).pending = s.pending := by
  unfold pushReport; split <;> rfl

/-- All that placing a report does: it joins the FIFO below its capacity, else it is lost and the flag says so. -/
theorem pushReport_cases (r : Report) (s : State) :
    (s.bus.reportFifo.length < 8 ∧ (pushReport r s).bus = { s.bus with reportFifo := s.bus.reportFifo ++ [r] }) ∨
    (8 ≤ s.bus.reportFifo.length ∧ (pushReport r s).bus.reportFifo = s.bus.reportFifo ∧
      (pushReport r s).bus.reportsLost = true) := by
  unfold pushReport reportCapacity
  split
  · exact .inl ⟨‹_›, rfl⟩
  · exact .inr ⟨by omega, rfl, rfl⟩

/-! ### endSpent: the spent condition and nothing else -/

@[simp] theorem endSpent_control (s : State) : (endSpent s).control = s.control := rfl
@[simp] theorem endSpent_port (s : State) : (endSpent s).port = s.port := rfl
@[simp] theorem endSpent_tally (s : State) : (endSpent s).tally = s.tally := rfl
@[simp] theorem endSpent_peers (s : State) : (endSpent s).peers = s.peers := rfl
@[simp] theorem endSpent_store (s : State) : (endSpent s).store = s.store := rfl
@[simp] theorem endSpent_cues (s : State) : (endSpent s).cues = s.cues := rfl
@[simp] theorem endSpent_claims (s : State) : (endSpent s).claims = s.claims := rfl
@[simp] theorem endSpent_groups (s : State) : (endSpent s).groups = s.groups := rfl
@[simp] theorem endSpent_profile (s : State) : (endSpent s).profile = s.profile := rfl
@[simp] theorem endSpent_faults (s : State) : (endSpent s).faults = s.faults := rfl
@[simp] theorem endSpent_free (s : State) : (endSpent s).free = s.free := rfl
@[simp] theorem endSpent_pending (s : State) : (endSpent s).pending = s.pending := rfl
@[simp] theorem endSpent_spent (s : State) : (endSpent s).bus.spent = false := rfl

/-! ### modifyCue: one entry of the cue list -/

@[simp] theorem modifyCue_control (k : Nat) (f : CueEntry → CueEntry) (s : State) : (modifyCue k f s).control = s.control := rfl
@[simp] theorem modifyCue_port (k : Nat) (f : CueEntry → CueEntry) (s : State) : (modifyCue k f s).port = s.port := rfl
@[simp] theorem modifyCue_bus (k : Nat) (f : CueEntry → CueEntry) (s : State) : (modifyCue k f s).bus = s.bus := rfl
@[simp] theorem modifyCue_tally (k : Nat) (f : CueEntry → CueEntry) (s : State) : (modifyCue k f s).tally = s.tally := rfl
@[simp] theorem modifyCue_peers (k : Nat) (f : CueEntry → CueEntry) (s : State) : (modifyCue k f s).peers = s.peers := rfl
@[simp] theorem modifyCue_store (k : Nat) (f : CueEntry → CueEntry) (s : State) : (modifyCue k f s).store = s.store := rfl
@[simp] theorem modifyCue_claims (k : Nat) (f : CueEntry → CueEntry) (s : State) : (modifyCue k f s).claims = s.claims := rfl
@[simp] theorem modifyCue_groups (k : Nat) (f : CueEntry → CueEntry) (s : State) : (modifyCue k f s).groups = s.groups := rfl
@[simp] theorem modifyCue_profile (k : Nat) (f : CueEntry → CueEntry) (s : State) : (modifyCue k f s).profile = s.profile := rfl
@[simp] theorem modifyCue_faults (k : Nat) (f : CueEntry → CueEntry) (s : State) : (modifyCue k f s).faults = s.faults := rfl
@[simp] theorem modifyCue_cues (k : Nat) (f : CueEntry → CueEntry) (s : State) :
    (modifyCue k f s).cues = s.cues.modify k f := rfl

end Machine
end Sys2Proof
end

