-- ==== Sys2Proof/Laws/Areas.lean ====
section
/-! SUPPORT. The laws of the shot store's memory: every write keeps the canonical form, a read after a write, and the sound
EMPTY area. -/
namespace Sys2Proof.Machine

theorem risingFrom_some (k : Nat) (l : List Nat) :
    risingFrom (some k) l = true ↔ (∀ m ∈ l, k < m) ∧ risingFrom none l = true := by
  induction l generalizing k with
  | nil => simp [risingFrom]
  | cons m ms ih =>
    simp only [risingFrom, Bool.and_eq_true, decide_eq_true_eq, List.mem_cons, forall_eq_or_imp]
    constructor
    · rintro ⟨h, hm⟩
      exact ⟨⟨h, fun x hx => lt_trans h (((ih m).1 hm).1 x hx)⟩, hm⟩
    · rintro ⟨⟨h, _⟩, hm⟩
      exact ⟨h, hm⟩

/-- Rising numbers are pairwise in order. -/
theorem risingFrom_none (l : List Nat) : risingFrom none l = true ↔ l.Pairwise (· < ·) := by
  induction l with
  | nil => simp [risingFrom]
  | cons m ms ih => simp [risingFrom, risingFrom_some, ih]

/-- The canonical form: numbers pairwise rising, no entry equal to the area that an unlisted number reads as. -/
theorem Areas.wf_iff (areas : List (Nat × List Byte)) :
    Areas.wf areas = true ↔ (areas.map Prod.fst).Pairwise (· < ·) ∧ ∀ e ∈ areas, e.2 ≠ emptyArea := by
  simp [Areas.wf, risingFrom_none]

theorem insertArea_keys (n : Nat) (a : List Byte) (areas : List (Nat × List Byte)) (x : Nat)
    (h : x ∈ (insertArea n a areas).map Prod.fst) : x = n ∨ x ∈ areas.map Prod.fst := by
  induction areas with
  | nil => simpa [insertArea] using h
  | cons e rest ih =>
    obtain ⟨m, b⟩ := e
    simp only [insertArea] at h
    split at h
    · simpa using h
    · split at h
      · simp only [List.map_cons, List.mem_cons] at h ⊢
        rcases h with h | h
        · exact .inl h
        · exact .inr (.inr h)
      · simp only [List.map_cons, List.mem_cons] at h ⊢
        rcases h with h | h
        · exact .inr (.inl h)
        · rcases ih h with h | h
          · exact .inl h
          · exact .inr (.inr h)

theorem insertArea_rising (n : Nat) (a : List Byte) (areas : List (Nat × List Byte))
    (h : (areas.map Prod.fst).Pairwise (· < ·)) : ((insertArea n a areas).map Prod.fst).Pairwise (· < ·) := by
  induction areas with
  | nil => simp [insertArea]
  | cons e rest ih =>
    obtain ⟨m, b⟩ := e
    simp only [List.map_cons, List.pairwise_cons] at h
    simp only [insertArea]
    split
    · rename_i hn
      simp only [List.map_cons, List.pairwise_cons, List.mem_cons, forall_eq_or_imp]
      exact ⟨⟨hn, fun x hx => lt_trans hn (h.1 x hx)⟩, h⟩
    · split
      · rename_i hn
        subst hn
        simpa using h
      · simp only [List.map_cons, List.pairwise_cons]
        refine ⟨fun x hx => ?_, ih h.2⟩
        rcases insertArea_keys n a rest x hx with rfl | hx
        · omega
        · exact h.1 x hx

theorem insertArea_mem (n : Nat) (a : List Byte) (areas : List (Nat × List Byte)) (e : Nat × List Byte)
    (h : e ∈ insertArea n a areas) : e = (n, a) ∨ e ∈ areas := by
  induction areas with
  | nil => simpa [insertArea] using h
  | cons f rest ih =>
    obtain ⟨m, b⟩ := f
    simp only [insertArea] at h
    split at h
    · simpa using h
    · split at h
      · simp only [List.mem_cons] at h ⊢
        rcases h with h | h
        · exact .inl h
        · exact .inr (.inr h)
      · simp only [List.mem_cons] at h ⊢
        rcases h with h | h
        · exact .inr (.inl h)
        · rcases ih h with h | h
          · exact .inl h
          · exact .inr (.inr h)

/-- Every write keeps the canonical form. -/
theorem writeArea_wf (n : Nat) (a : List Byte) (areas : List (Nat × List Byte)) (h : Areas.wf areas = true) :
    Areas.wf (writeArea n a areas) = true := by
  rw [Areas.wf_iff] at h ⊢
  unfold writeArea
  split
  · refine ⟨?_, fun e he => h.2 e (List.mem_of_mem_filter he)⟩
    exact h.1.sublist (List.filter_sublist.map _)
  · rename_i ha
    refine ⟨insertArea_rising n a areas h.1, fun e he => ?_⟩
    rcases insertArea_mem n a areas e he with rfl | he
    · exact ha
    · exact h.2 e he

theorem reset_areas_wf : Areas.wf State.reset.store.areas = true := rfl

theorem lookup_cons_if (m k : Nat) (b : List Byte) (rest : List (Nat × List Byte)) :
    ((k, b) :: rest).lookup m = if m = k then some b else rest.lookup m := by
  by_cases h : m = k
  · subst h; simp
  · rw [List.lookup_cons, beq_false_of_ne h]; simp [h]

theorem insertArea_lookup (n m : Nat) (a : List Byte) (areas : List (Nat × List Byte)) :
    (insertArea n a areas).lookup m = if m = n then some a else areas.lookup m := by
  induction areas with
  | nil => rw [insertArea, lookup_cons_if]
  | cons e rest ih =>
    obtain ⟨k, b⟩ := e
    simp only [insertArea]
    split
    · rw [lookup_cons_if]
    · split
      · rename_i hk
        subst hk
        rw [lookup_cons_if, lookup_cons_if]
        by_cases hm : m = n <;> simp [hm]
      · rename_i hk
        rw [lookup_cons_if, lookup_cons_if, ih]
        by_cases hm : m = k
        · subst hm
          have hn : m ≠ n := fun e => hk e.symm
          simp [hn]
        · simp [hm]

theorem filter_lookup (n m : Nat) (areas : List (Nat × List Byte)) :
    (areas.filter fun e => e.1 != n).lookup m = if m = n then none else areas.lookup m := by
  induction areas with
  | nil => simp
  | cons e rest ih =>
    obtain ⟨k, b⟩ := e
    rw [List.filter_cons, lookup_cons_if]
    by_cases hk : k = n
    · subst hk
      simp only [bne_self_eq_false, Bool.false_eq_true, if_false, ih]
      by_cases hm : m = k <;> simp [hm]
    · simp only [bne_iff_ne, ne_eq, hk, not_false_eq_true, if_true, lookup_cons_if, ih]
      by_cases hm : m = k
      · subst hm; simp [hk]
      · simp [hm]

/-- A read after a write: the written area, and every other area as before. -/
theorem areaOf_writeArea (n m : Nat) (a : List Byte) (areas : List (Nat × List Byte)) :
    areaOf (writeArea n a areas) m = if m = n then a else areaOf areas m := by
  unfold writeArea areaOf
  split
  · rename_i ha
    rw [filter_lookup]
    by_cases hm : m = n <;> simp [hm, ha]
  · rw [insertArea_lookup]
    by_cases hm : m = n <;> simp [hm]

/-- The area of an unlisted record passes the start-up check. -/
theorem emptyArea_sound : areaSound emptyArea = true := by decide +kernel

theorem emptyArea_record : areaRecord emptyArea = .empty := by decide +kernel

@[simp] theorem be2_length (w : BitVec 16) : (be2 w).length = 2 := rfl
@[simp] theorem be3_length (w : Position) : (be3 w).length = 3 := rfl
@[simp] theorem withCheck_length (l : List Byte) : (withCheck l).length = l.length + 2 := by simp [withCheck]

end Sys2Proof.Machine
end

