-- ==== Sys2Proof/Laws/Keeps.lean ====
section
/-! SUPPORT. What the shared operations of Machine/Ops.lean and Machine/Progress.lean never touch, whatever they do: one
projection `kept`, and one lemma per operation. -/
namespace Sys2Proof.Machine

/-- What no shared operation of the cue list, the claim manager, the profile generator and the fault unit changes: the
shot store, the peer table, the tally monitor, the setpoints and replies, station control but for the station state, drive
enable and the FAULT pin, and the bus interface but for its queues, its marker and its transmission. -/
def kept (s : State) :=
  (s.store, s.peers, s.tally, s.free, s.pending,
    { s.control with station := .offline, driveEnable := false, faultPin := false },
    { s.port with blanking := none },
    (s.bus.heartbeat, s.bus.spent, s.bus.abandonCount, s.bus.cursor, s.bus.driverEnable), s.profile.hold)

theorem kept_store {s t : State} (h : kept s = kept t) : s.store = t.store := congrArg (·.1) h
theorem kept_peers {s t : State} (h : kept s = kept t) : s.peers = t.peers := congrArg (·.2.1) h
theorem kept_tally {s t : State} (h : kept s = kept t) : s.tally = t.tally := congrArg (·.2.2.1) h
theorem kept_free {s t : State} (h : kept s = kept t) : s.free = t.free := congrArg (·.2.2.2.1) h
theorem kept_pending {s t : State} (h : kept s = kept t) : s.pending = t.pending := congrArg (·.2.2.2.2.1) h
theorem kept_phase {s t : State} (h : kept s = kept t) : s.control.phase = t.control.phase :=
  congrArg (·.2.2.2.2.2.1.phase) h
theorem kept_resetPin {s t : State} (h : kept s = kept t) : s.control.resetPin = t.control.resetPin :=
  congrArg (·.2.2.2.2.2.1.resetPin) h
theorem kept_number {s t : State} (h : kept s = kept t) : s.control.number = t.control.number :=
  congrArg (·.2.2.2.2.2.1.number) h
theorem kept_config {s t : State} (h : kept s = kept t) : s.control.config = t.control.config :=
  congrArg (·.2.2.2.2.2.1.config) h
theorem kept_restartPending {s t : State} (h : kept s = kept t) : s.control.restartPending = t.control.restartPending :=
  congrArg (·.2.2.2.2.2.1.restartPending) h
theorem kept_lastSetpoint {s t : State} (h : kept s = kept t) : s.port.lastSetpoint = t.port.lastSetpoint :=
  congrArg (·.2.2.2.2.2.2.1.lastSetpoint) h
theorem kept_exchange {s t : State} (h : kept s = kept t) : s.port.exchange = t.port.exchange :=
  congrArg (·.2.2.2.2.2.2.1.exchange) h
theorem kept_driveStatus {s t : State} (h : kept s = kept t) : s.port.driveStatus = t.port.driveStatus :=
  congrArg (·.2.2.2.2.2.2.1.driveStatus) h
theorem kept_spent {s t : State} (h : kept s = kept t) : s.bus.spent = t.bus.spent := congrArg (·.2.2.2.2.2.2.2.1.2.1) h
theorem kept_abandonCount {s t : State} (h : kept s = kept t) : s.bus.abandonCount = t.bus.abandonCount :=
  congrArg (·.2.2.2.2.2.2.2.1.2.2.1) h
theorem kept_cursor {s t : State} (h : kept s = kept t) : s.bus.cursor = t.bus.cursor :=
  congrArg (·.2.2.2.2.2.2.2.1.2.2.2.1) h
theorem kept_hold {s t : State} (h : kept s = kept t) : s.profile.hold = t.profile.hold := congrArg (·.2.2.2.2.2.2.2.2) h

/-! ### Ops -/

@[simp] theorem kept_modifyCue (k : Nat) (f : CueEntry → CueEntry) (s : State) : kept (modifyCue k f s) = kept s := rfl

@[simp] theorem kept_setMarker (s : State) : kept (setMarker s) = kept s := by unfold setMarker; split <;> rfl

@[simp] theorem kept_pushReport (r : Report) (s : State) : kept (pushReport r s) = kept s := by
  unfold pushReport; split <;> rfl

@[simp] theorem kept_reportCue (tag : Byte) (o : CueOutcome) (s : State) : kept (reportCue tag o s) = kept s :=
  kept_pushReport _ s

@[simp] theorem kept_reportStore (n : Byte) (o : StoreOutcome) (s : State) : kept (reportStore n o s) = kept s :=
  kept_pushReport _ s

@[simp] theorem kept_raiseFlags (c : FaultClass) (n : FaultName) (s : State) : kept (raiseFlags c n s) = kept s := by
  unfold raiseFlags
  dsimp only
  have h : ∀ f, kept (setMarker { s with faults := f }) = kept s := fun _ => (kept_setMarker _).trans rfl
  split <;> split <;> simp [h]

@[simp] theorem kept_restartBlanking (s : State) : kept (restartBlanking s) = kept s := rfl

@[simp] theorem kept_retarget (s t : State) : kept (retarget s t) = kept t := by unfold retarget; split <;> rfl

@[simp] theorem kept_setMotion (m : MotionState) (s : State) : kept (setMotion m s) = kept s := by
  unfold setMotion; split
  · rfl
  · exact kept_setMarker _

@[simp] theorem kept_beginStop (k : StopKind) (s : State) : kept (beginStop k s) = kept s := by
  unfold beginStop; rw [kept_retarget, kept_setMotion]; rfl

@[simp] theorem kept_endMove (s : State) : kept (endMove s) = kept s :=
  show kept (setMotion .idle s) = kept s from kept_setMotion .idle s

@[simp] theorem kept_faultMotion (s : State) : kept (faultMotion s) = kept s := by
  unfold faultMotion
  split <;> first | rfl | exact kept_beginStop _ _

@[simp] theorem kept_joinReady (r : QueuedReady) (s : State) : kept (joinReady r s) = kept s := by
  unfold joinReady; dsimp only; (repeat' split) <;> rfl

@[simp] theorem kept_orphanSent (g : Byte) (s : State) : kept (orphanSent g s) = kept s := rfl

@[simp] theorem kept_placeWithdrawal (g tag : Byte) (s : State) : kept (placeWithdrawal g tag s) = kept s := by
  unfold placeWithdrawal; dsimp only; split
  · rfl
  · rw [kept_joinReady]; rfl

@[simp] theorem kept_dropReadiness (g : Byte) (s : State) : kept (dropReadiness g s) = kept s := rfl

@[simp] theorem kept_setOwn (own : List OwnClaim) (s : State) : kept (setOwn own s) = kept s := by
  unfold setOwn; split
  · rfl
  · exact kept_setMarker _

@[simp] theorem kept_stopClaimTimers (s : State) : kept (stopClaimTimers s) = kept s := rfl

@[simp] theorem kept_dropGroup (e : CueEntry) (s : State) : kept (dropGroup e s) = kept s := by
  unfold dropGroup; split
  · rfl
  · dsimp only; split <;> rfl

@[simp] theorem kept_dropAt (k : Nat) (s : State) : kept (dropAt k s) = kept s := by
  unfold dropAt; split
  · rfl
  · dsimp only; rw [kept_setOwn, kept_dropGroup]; split <;> rfl

@[simp] theorem kept_removeAt (k : Nat) (o : CueOutcome) (w : Bool) (s : State) : kept (removeAt k o w s) = kept s := by
  unfold removeAt; split
  · rfl
  · dsimp only; rw [kept_dropAt]; split
    · split <;> simp
    · simp

@[simp] theorem kept_removeFrom (k : Nat) (o : CueOutcome) (n : Nat) (s : State) : kept (removeFrom k o n s) = kept s := by
  induction n generalizing s with
  | zero => rfl
  | succ n ih => simp [removeFrom, ih]

@[simp] theorem kept_removeIdle (o : CueOutcome) (s : State) : kept (removeIdle o s) = kept s := by
  unfold removeIdle; split <;> simp

@[simp] theorem kept_setHeadEnding (o : CueOutcome) (s : State) : kept (setHeadEnding o s) = kept s := rfl

@[simp] theorem kept_setOverlap (l : List Nat) (s : State) : kept (setOverlap l s) = kept s := rfl

/-- The overlap test keeps what its way of raising a fault keeps. -/
theorem kept_overlapTestBy {fault : FaultClass → FaultName → State → State}
    (hf : ∀ c n s, kept (fault c n s) = kept s) (n : Nat) (s : State) : kept (overlapTestBy fault n s) = kept s := by
  unfold overlapTestBy; split
  · rfl
  · split
    · split
      · rfl
      · rw [hf]; rfl
    · rfl

theorem kept_overlapAllBy {fault : FaultClass → FaultName → State → State}
    (hf : ∀ c n s, kept (fault c n s) = kept s) (s : State) : kept (overlapAllBy fault s) = kept s := by
  unfold overlapAllBy
  generalize s.peers.map PeerEntry.number = l
  induction l generalizing s with
  | nil => rfl
  | cons n l ih => rw [List.foldl_cons, ih, kept_overlapTestBy hf]

theorem kept_overlapAfterBy {fault : FaultClass → FaultName → State → State}
    (hf : ∀ c n s, kept (fault c n s) = kept s) (b s : State) : kept (overlapAfterBy fault b s) = kept s := by
  unfold overlapAfterBy; split
  · rfl
  · exact kept_overlapAllBy hf s

@[simp] theorem kept_failList (s : State) : kept (failList s) = kept s := by
  unfold failList; rw [kept_removeIdle]; split <;> rfl

@[simp] theorem kept_setFaultStop (s : State) : kept (setFaultStop s) = kept s :=
  (kept_setMarker _).trans rfl

@[simp] theorem kept_enterFaultStop (s : State) : kept (enterFaultStop s) = kept s := by
  unfold enterFaultStop
  simp [kept_overlapAfterBy kept_raiseFlags]

@[simp] theorem kept_raise (c : FaultClass) (n : FaultName) (s : State) : kept (raise c n s) = kept s := by
  unfold raise; dsimp only; split <;> simp

@[simp] theorem kept_overlapTest (n : Nat) (s : State) : kept (overlapTest n s) = kept s := kept_overlapTestBy kept_raise n s
@[simp] theorem kept_overlapAll (s : State) : kept (overlapAll s) = kept s := kept_overlapAllBy kept_raise s
@[simp] theorem kept_overlapAfter (b s : State) : kept (overlapAfter b s) = kept s := kept_overlapAfterBy kept_raise b s

@[simp] theorem kept_changeClaims (own : List OwnClaim) (s : State) : kept (changeClaims own s) = kept s := by
  unfold changeClaims; simp

/-! ### Progress -/

@[simp] theorem kept_noteLegsAdded (s : State) : kept (noteLegsAdded s) = kept s := rfl

@[simp] theorem kept_announceLegs (k : Nat) (e : CueEntry) (l : List Leg) (s : State) :
    kept (announceLegs k e l s) = kept s := by
  unfold announceLegs; simp

@[simp] theorem kept_routeTest (k : Nat) (s : State) : kept (routeTest k s) = kept s := by
  unfold routeTest
  split
  · rfl
  · split
    · split
      · rfl
      · dsimp only; split <;> simp
    · rfl

@[simp] theorem kept_retestRoutes (s : State) : kept (retestRoutes s) = kept s := by simp [retestRoutes]

@[simp] theorem kept_raiseLimits (l : List Axis) (s : State) : kept (raiseLimits l s).1 = kept s := by
  induction l generalizing s with
  | nil => rfl
  | cons a l ih => unfold raiseLimits; dsimp only; split <;> simp [ih]

@[simp] theorem kept_startClaimWait (p : Plan) (s : State) : kept (startClaimWait p s) = kept s := by
  unfold startClaimWait; split <;> rfl

@[simp] theorem kept_enterRouting (k : Nat) (c : ShotContent) (p : Plan) (s : State) :
    kept (enterRouting k c p s) = kept s := by simp [enterRouting]

@[simp] theorem kept_planAt (k : Nat) (s : State) : kept (planAt k s).1 = kept s := by
  unfold planAt
  split
  · rfl
  · split
    · rfl
    · split
      · simp
      · rename_i c _
        have h := kept_raiseLimits (clampedAxes (configOf s) (planStarts k s) c) s
        dsimp only
        split
        · rename_i t ht; rw [ht] at h; exact h
        · rename_i t ht
          rw [ht] at h
          split <;> simp_all

@[simp] theorem kept_fillSecond (n : Nat) (s : State) : kept (fillSecond n s) = kept s := by
  induction n generalizing s with
  | zero => rfl
  | succ n ih =>
    unfold fillSecond
    split
    · have h := kept_planAt 1 s
      split
      · rename_i t ht; rw [ht] at h; rw [ih]; exact h
      · rename_i t _ _ ht; rw [ht] at h; exact h
    · rfl

@[simp] theorem kept_endHead (o : CueOutcome) (s : State) : kept (endHead o s) = kept s := by
  unfold endHead; split
  · rfl
  · rw [kept_dropGroup]; exact kept_reportCue _ _ s

@[simp] theorem kept_completeMove (s : State) : kept (completeMove s) = kept s := by
  unfold completeMove; simp

@[simp] theorem kept_beginMove (s : State) : kept (beginMove s) = kept s := by
  unfold beginMove
  split
  · rfl
  · split
    · rfl
    · dsimp only
      rw [kept_restartBlanking]
      exact (kept_setMotion _ _).trans rfl

@[simp] theorem kept_releaseParked (s : State) : kept (releaseParked s) = kept s := by
  unfold releaseParked; split
  · split <;> simp
  · rfl

@[simp] theorem kept_startHead (s : State) : kept (startHead s).1 = kept s := by
  unfold startHead; split
  · rfl
  · dsimp only; split <;> simp

@[simp] theorem kept_reportDeferred (e : CueEntry) (s : State) : kept (reportDeferred e s) = kept s := by
  unfold reportDeferred; split <;> simp

@[simp] theorem kept_enterGroupWait (e : CueEntry) (s : State) : kept (enterGroupWait e s) = kept s := by
  unfold enterGroupWait
  exact (kept_joinReady _ _).trans rfl

@[simp] theorem kept_testHead (s : State) : kept (testHead s).1 = kept s := by
  unfold testHead
  split
  · rfl
  · split
    · simp
    · split
      · split
        · simp
        · split <;> simp
      · rfl

@[simp] theorem kept_advance (n : Nat) (s : State) : kept (advance n s) = kept s := by
  induction n generalizing s with
  | zero => rfl
  | succ n ih =>
    unfold advance
    split
    · rfl
    · split
      · split
        · have h := kept_planAt 0 s
          split
          · rename_i t ht; rw [ht] at h; rw [ih]; exact h
          · rename_i t ht; rw [ht] at h; exact h
          · rename_i t ht
            rw [ht] at h
            have g := kept_testHead t
            split
            · rename_i u hu; rw [hu] at g; rw [ih]; exact g.trans h
            · rename_i u hu; rw [hu] at g; exact g.trans h
        · rfl
      · have g := kept_testHead s
        split
        · rename_i u hu; rw [hu] at g; rw [ih]; exact g
        · rename_i u hu; rw [hu] at g; exact g

@[simp] theorem kept_takeUpHead (s : State) : kept (takeUpHead s) = kept s := kept_advance _ s

@[simp] theorem kept_retestHead (s : State) : kept (retestHead s) = kept s := by
  unfold retestHead
  have g := kept_testHead s
  split
  · rename_i u hu; rw [hu] at g; simpa using g
  · rename_i u hu; rw [hu] at g; exact g

@[simp] theorem kept_takeUpSecond (s : State) : kept (takeUpSecond s) = kept s := kept_fillSecond _ s

@[simp] theorem kept_refill (k : Nat) (s : State) : kept (refill k s) = kept s := by
  unfold refill; split <;> simp

@[simp] theorem kept_leaveAt (k : Nat) (o : CueOutcome) (w : Bool) (s : State) : kept (leaveAt k o w s) = kept s := by
  simp [leaveAt]

@[simp] theorem kept_discardPrePlan (s : State) : kept (discardPrePlan s) = kept s := by
  unfold discardPrePlan; split
  · rfl
  · split <;> rfl

@[simp] theorem kept_endStoppedMove (s : State) : kept (endStoppedMove s) = kept s := by
  unfold endStoppedMove; simp

@[simp] theorem kept_returnToActive (s : State) : kept (returnToActive s) = kept s := (kept_setMarker _).trans rfl

@[simp] theorem kept_faultStopCompletion (s : State) : kept (faultStopCompletion s) = kept s := by
  unfold faultStopCompletion; split
  · rfl
  · simp

end Sys2Proof.Machine
end

