-- ==== Sys2Proof/Laws/Floor.lean ====
section
/-! SUPPORT. The floor grid by cells, the route test as the first free candidate, and what the blanking windows' expiry and
the reset pin's level can do. -/
namespace Sys2Proof.Machine

/-! ### Cells (R13, R73, R84) -/

/-- Two rectangles intersect exactly when they share a cell (R13). -/
theorem Rect.intersects_iff (a b : Rect) : a.intersects b = true ↔ ∃ x y, a.holds x y ∧ b.holds x y := by
  simp only [Rect.intersects, Rect.holds, decide_eq_true_eq]
  constructor
  · intro h
    exact ⟨max a.x0 b.x0, max a.y0 b.y0, by omega, by omega⟩
  · rintro ⟨x, y, h⟩
    omega

/-- The conflict and overlap test by cells: some shared cell lies outside the exempt footprint (R73, R84). -/
theorem meetsOutside_iff (a b : Rect) (exempt : Option Rect) :
    meetsOutside a b exempt = true ↔
      ∃ x y, a.holds x y ∧ b.holds x y ∧ ∀ f, exempt = some f → ¬f.holds x y := by
  cases exempt with
  | none => simp [meetsOutside, Rect.intersects_iff]
  | some f =>
    simp only [meetsOutside, Bool.and_eq_true, Bool.not_eq_true', Rect.intersects, Rect.within, Rect.inter, Rect.holds,
      decide_eq_true_eq, Option.some.injEq, forall_eq']
    constructor
    · rintro ⟨h, n⟩
      have n := of_decide_eq_false n
      by_cases hx : f.x0 ≤ max a.x0 b.x0
      · by_cases hy : f.y0 ≤ max a.y0 b.y0
        · exact ⟨min a.x1 b.x1, min a.y1 b.y1, by omega, by omega, by omega⟩
        · exact ⟨min a.x1 b.x1, max a.y0 b.y0, by omega, by omega, by omega⟩
      · exact ⟨max a.x0 b.x0, max a.y0 b.y0, by omega, by omega, by omega⟩
    · rintro ⟨x, y, h1, h2, n⟩
      exact ⟨by omega, decide_eq_false (by omega)⟩

/-! ### The route test (R63, R75, R76) -/

/-- The route test finds the first free candidate. -/
theorem firstFree_iff (p : Plan) (obs : List Rect) (i : Nat) :
    p.candidates.findIdx? (routeFree p obs) = some i ↔ ∃ r, firstFree p obs i r := by
  rw [List.findIdx?_eq_some_iff_getElem]
  constructor
  · rintro ⟨h, ht, hj⟩
    refine ⟨p.candidates[i], List.getElem?_eq_getElem h, ht, fun j hji q hq => ?_⟩
    obtain ⟨hl, rfl⟩ := List.getElem?_eq_some_iff.mp hq
    simpa using hj j hji
  · rintro ⟨r, hr, hf, hj⟩
    obtain ⟨hl, rfl⟩ := List.getElem?_eq_some_iff.mp hr
    refine ⟨hl, hf, fun j hji => ?_⟩
    simpa using hj j hji _ (List.getElem?_eq_getElem (by omega))

/-- The route test finds none exactly when every candidate is blocked. -/
theorem allBlocked_iff (p : Plan) (obs : List Rect) :
    p.candidates.findIdx? (routeFree p obs) = none ↔ allBlocked p obs := by
  simp [List.findIdx?_eq_none_iff, allBlocked]

/-! ### The reset pin's level (R175) -/

@[simp] theorem setResetPin_phase (b : Bool) (s : State) : (setResetPin b s).control.phase = s.control.phase := rfl
@[simp] theorem setResetPin_resetPin (b : Bool) (s : State) : (setResetPin b s).control.resetPin = b := rfl
@[simp] theorem setResetPin_port (b : Bool) (s : State) : (setResetPin b s).port = s.port := rfl
@[simp] theorem setResetPin_bus (b : Bool) (s : State) : (setResetPin b s).bus = s.bus := rfl
@[simp] theorem setResetPin_tally (b : Bool) (s : State) : (setResetPin b s).tally = s.tally := rfl
@[simp] theorem setResetPin_peers (b : Bool) (s : State) : (setResetPin b s).peers = s.peers := rfl
@[simp] theorem setResetPin_store (b : Bool) (s : State) : (setResetPin b s).store = s.store := rfl
@[simp] theorem setResetPin_cues (b : Bool) (s : State) : (setResetPin b s).cues = s.cues := rfl
@[simp] theorem setResetPin_claims (b : Bool) (s : State) : (setResetPin b s).claims = s.claims := rfl
@[simp] theorem setResetPin_groups (b : Bool) (s : State) : (setResetPin b s).groups = s.groups := rfl
@[simp] theorem setResetPin_profile (b : Bool) (s : State) : (setResetPin b s).profile = s.profile := rfl
@[simp] theorem setResetPin_faults (b : Bool) (s : State) : (setResetPin b s).faults = s.faults := rfl
@[simp] theorem setResetPin_free (b : Bool) (s : State) : (setResetPin b s).free = s.free := rfl
@[simp] theorem setResetPin_pending (b : Bool) (s : State) : (setResetPin b s).pending = s.pending := rfl

/-- A halt leaves the pin's level as it stands. -/
@[simp] theorem haltPart_resetPin (p : Phase) (s : State) : (haltPart p s).control.resetPin = s.control.resetPin := by
  unfold haltPart cutWrite; dsimp only; split <;> rfl

@[simp] theorem haltPart_phase (p : Phase) (s : State) : (haltPart p s).control.phase = p := rfl

@[simp] theorem startSequence_resetPin (s : State) : (startSequence s).control.resetPin = false := rfl

/-! ### The blanking windows' expiry (R128, R129) -/

@[simp] theorem kept_checkFollowing (a : Axis) (v p : Position) (s : State) : kept (checkFollowing a v p s) = kept s := by
  unfold checkFollowing; split <;> simp

@[simp] theorem kept_recheckAxis (x : Exchange) (s : State) (a : Axis) : kept (recheckAxis x s a) = kept s := by
  unfold recheckAxis; split <;> simp

theorem kept_foldl_recheckAxis (x : Exchange) (l : List Axis) (s : State) : kept (l.foldl (recheckAxis x) s) = kept s := by
  induction l generalizing s with
  | nil => rfl
  | cons a l ih => simp [ih]

@[simp] theorem kept_recheckPairs (x : Exchange) (s : State) : kept (recheckPairs x s) = kept s :=
  kept_foldl_recheckAxis x Axis.all _

@[simp] theorem kept_addRestartPeriod (s : State) : kept (addRestartPeriod s) = kept s := rfl

@[simp] theorem kept_expireBlanking (s : State) : kept (expireBlanking s) = kept s := by
  unfold expireBlanking
  split
  · rfl
  · split <;> simp

/-- All that the blanking windows' expiry does: nothing while they are not at their expiry; else the check of the pairs, and
before the servo period expiry of the same moment one period more for a restart that it made. -/
theorem expireBlanking_cases (s : State) :
    (exchangeAtExpiry s = none ∧ expireBlanking s = s) ∨
    (∃ x, s.port.blanking = some 1 ∧ s.port.exchange = some x ∧ expireBlanking s = addRestartPeriod (recheckPairs x s)) ∨
    (∃ x, s.port.blanking = some 0 ∧ s.port.closed = some x ∧ expireBlanking s = recheckPairs x s) := by
  unfold expireBlanking
  split
  · exact .inl ⟨‹_›, rfl⟩
  · rename_i x hx
    unfold exchangeAtExpiry at hx
    split at hx
    · rename_i hb; exact .inr (.inr ⟨x, hb, hx, by simp [hb]⟩)
    · rename_i hb; exact .inr (.inl ⟨x, hb, hx, by simp [hb]⟩)
    · cases hx

end Sys2Proof.Machine
end

