-- ==== Sys2Proof/Laws/Ops.lean ====
section
/-! SUPPORT. One lemma for each shared operation that says what it does: flags and raises, markers, motion, the own claim
set, the READY FIFO, and the meanings' common shape. -/
namespace Sys2Proof.Machine

theorem set_get_same (p : PerClass FaultFlags) (c : FaultClass) : p.set c (p.get c) = p := by
  apply PerClass.ext_get
  intro d
  rw [PerClass.get_set]
  split
  · rename_i h; rw [h]
  · rfl

/-- All that raising the flags of a class does to the fault set. -/
@[simp] theorem raiseFlags_faults (c : FaultClass) (n : FaultName) (s : State) :
    (raiseFlags c n s).faults = s.faults.set c (flagsAfterRaise (s.faults.get c)) := by
  unfold raiseFlags
  dsimp only
  by_cases he : flagsAfterRaise (s.faults.get c) = s.faults.get c
  · rw [if_pos he]
    rw [he, set_get_same]
    split <;> simp
  · rw [if_neg he]
    split <;> simp

@[simp] theorem raiseFlags_control (c : FaultClass) (n : FaultName) (s : State) : (raiseFlags c n s).control = s.control := by
  unfold raiseFlags; dsimp only; split <;> split <;> simp
@[simp] theorem raiseFlags_port (c : FaultClass) (n : FaultName) (s : State) : (raiseFlags c n s).port = s.port := by
  unfold raiseFlags; dsimp only; split <;> split <;> simp
@[simp] theorem raiseFlags_cues (c : FaultClass) (n : FaultName) (s : State) : (raiseFlags c n s).cues = s.cues := by
  unfold raiseFlags; dsimp only; split <;> split <;> simp
@[simp] theorem raiseFlags_claims (c : FaultClass) (n : FaultName) (s : State) : (raiseFlags c n s).claims = s.claims := by
  unfold raiseFlags; dsimp only; split <;> split <;> simp
@[simp] theorem raiseFlags_groups (c : FaultClass) (n : FaultName) (s : State) : (raiseFlags c n s).groups = s.groups := by
  unfold raiseFlags; dsimp only; split <;> split <;> simp
@[simp] theorem raiseFlags_profile (c : FaultClass) (n : FaultName) (s : State) : (raiseFlags c n s).profile = s.profile := by
  unfold raiseFlags; dsimp only; split <;> split <;> simp

/-- A raise's report: none when the class was set or is masked, else one placed in the report FIFO. -/
theorem raiseFlags_reports (c : FaultClass) (n : FaultName) (s : State) :
    (raiseFlags c n s).bus.reportFifo =
      if (s.faults.get c).sticky || (settingOf s c).masked then s.bus.reportFifo
      else (pushReport (.fault c n) s).bus.reportFifo := by
  have hm : ∀ t : State, (setMarker t).bus.reportFifo = t.bus.reportFifo := fun t => by rw [setMarker_bus]
  have hp : ∀ (r : Report) (t u : State), t.bus.reportFifo = u.bus.reportFifo →
      (pushReport r t).bus.reportFifo = (pushReport r u).bus.reportFifo := by
    intro r t u h
    unfold pushReport
    rw [h]
    split <;> simp [h]
  unfold raiseFlags
  dsimp only
  split
  · split <;> simp [hm]
  · exact hp _ _ _ (by split <;> simp [hm])

/-- A setting depends on the configuration alone. -/
theorem settingOf_config (s t : State) (h : t.control.config = s.control.config) (c : FaultClass) :
    settingOf t c = settingOf s c := by
  cases c <;> simp [settingOf, configOf, h]

/-- A raise that is no entry to FAULT_STOP only sets flags (R164). -/
theorem raise_flags_only (c : FaultClass) (n : FaultName) (s : State)
    (h : s.control.station ≠ .active ∨ isStop s c = false) : raise c n s = raiseFlags c n s := by
  unfold raise
  rcases h with h | h <;> simp [h]

/-- A raise of STOP severity in ACTIVE enters FAULT_STOP (R164, R166). -/
theorem raise_stop (c : FaultClass) (n : FaultName) (s : State) (ha : s.control.station = .active)
    (hs : isStop s c = true) : raise c n s = enterFaultStop (raiseFlags c n s) := by
  unfold raise
  simp [ha, hs]

/-- Off the bus a setting of the STATE marker has no effect (R148). -/
theorem setMarker_off (s : State) (h : onBus s = false) : setMarker s = s := by simp [setMarker, h]

/-- On the bus it marks the marker (R148). -/
theorem setMarker_on (s : State) (h : onBus s = true) :
    setMarker s = { s with bus := { s.bus with stateMarker := true } } := by simp [setMarker, h]

@[simp] theorem setOwn_own (own : List OwnClaim) (s : State) : (setOwn own s).claims.own = own := by
  unfold setOwn; split
  · rename_i h; exact h.symm
  · simp

@[simp] theorem setOwn_same (s : State) : setOwn s.claims.own s = s := by simp [setOwn]

@[simp] theorem setMotion_motion (m : MotionState) (s : State) : (setMotion m s).profile.motion = m := by
  unfold setMotion; split
  · assumption
  · simp

@[simp] theorem setMotion_same (s : State) : setMotion s.profile.motion s = s := by simp [setMotion]

/-- A withdrawal dropped from a list leaves it shorter or as it was. -/
theorem dropWithdrawal_length (l : List QueuedReady) :
    (dropWithdrawal l).length ≤ l.length ∧ l.length ≤ (dropWithdrawal l).length + 1 := by
  induction l with
  | nil => simp [dropWithdrawal]
  | cons r rs ih =>
    unfold dropWithdrawal
    split
    · simp
    · simp only [List.length_cons]; omega

@[simp] theorem replaceReadiness_length (g : Byte) (w : QueuedReady) (l : List QueuedReady) :
    (replaceReadiness g w l).length = l.length := by
  induction l with
  | nil => rfl
  | cons r rs ih => unfold replaceReadiness; split <;> simp [ih]

/-- Joining the READY FIFO keeps it within its four places (R102). -/
theorem joinReady_capacity (r : QueuedReady) (s : State) (h : s.bus.readyFifo.length ≤ 4) :
    (joinReady r s).bus.readyFifo.length ≤ 4 := by
  unfold joinReady readyCapacity
  dsimp only
  generalize s.bus.readyFifo.take (readySent s) ++ dropWithdrawal (s.bus.readyFifo.drop (readySent s)) = l
  split
  · simp only [List.length_append, List.length_cons, List.length_nil]; omega
  · split
    · simp only [List.length_append, List.length_cons, List.length_nil]; omega
    · exact h

/-- Placing a report keeps the report FIFO within its eight places (R146). -/
theorem pushReport_capacity (r : Report) (s : State) (h : s.bus.reportFifo.length ≤ 8) :
    (pushReport r s).bus.reportFifo.length ≤ 8 := by
  rcases pushReport_cases r s with ⟨h1, h2⟩ | ⟨_, h2, _⟩
  · rw [h2]; simp; omega
  · rw [h2]; exact h

/-- One step of the rate stays within the bounds of the rate and its target (R116). -/
theorem stepToward_le (step target r b : Nat) (h1 : target ≤ b) (h2 : r ≤ b) : stepToward step target r ≤ b := by
  unfold stepToward; split <;> split <;> omega

/-- A frame heard from another station is handed to its block with the spent condition ended (R152). -/
theorem heard_other (h : Header) (f : State → State) (s : State) (hh : s.control.phase = .hearing)
    (ho : sourceOf h ≠ s.control.number) : heard h f s = f (endSpent s) := by
  simp [heard, whenHearing, hh, ho]

/-- A frame with the station's own number as source reaches no block (R155). -/
theorem heard_own (h : Header) (f : State → State) (s : State) (hh : s.control.phase = .hearing)
    (ho : sourceOf h = s.control.number) : heard h f s = duplicateStation s := by
  simp [heard, whenHearing, hh, ho]

/-- A request of the cue station taken (R142). -/
theorem heardFromCue_taken (h : Header) (f : State → State) (s : State) (hh : s.control.phase = .hearing)
    (ho : sourceOf h ≠ s.control.number) (hs : sourceOf h = cueStation) (ha : addressed h s = true) :
    heardFromCue h f s = f (endSpent s) := by
  have ha' : addressed h (endSpent s) = true := ha
  rw [heardFromCue, heard_other h _ s hh ho, fromCueStation, if_pos ⟨hs, ha'⟩]

/-- Before hearing begins nothing is received (R175). -/
theorem whenHearing_off (f : State → State) (s : State) (h : s.control.phase ≠ .hearing) : whenHearing f s = s := by
  simp [whenHearing, h]

theorem whenHearing_on (f : State → State) (s : State) (h : s.control.phase = .hearing) : whenHearing f s = f s := by
  simp [whenHearing, h]

end Sys2Proof.Machine
end

