-- ==== Sys2Proof/Tests/Slice0.lean ====
section
/-! SUPPORT. Tests whose expected results come from the spec's worked examples and tables, from frames written out byte by
byte from chapter 12 (check words computed outside the model), and for each statement with hypotheses a witness: a concrete
state and operands that meet them together. -/
namespace Sys2Proof.Tests
open Sys2Proof Sys2Proof.Machine

-- The many kernel evaluations below are elaborated one after another, not in threads of their own.
set_option Elab.async false

/-! ### A configuration and states to test on -/

/-- Limits of a floor axis. -/
def floorLimits : AxisLimits := ⟨0, 7999, 2, 1, 40⟩

/-- Limits of a head axis: pan's of the example in chapter 4.2. -/
def headLimits : AxisLimits := ⟨0, 900000, 60, 128, 40⟩

def testConfig : Configuration :=
  { axes := ⟨floorLimits, floorLimits, headLimits, headLimits, headLimits, headLimits, headLimits⟩
    halfWidth := 400, liveRate := 96, step := 24, faultStep := 64, blanking := 40, claimWait := .s4
    groupWait := 2000, startDelay := 20, classes := PerClass.ofFn defaultSetting, autoOnline := false }

def atRest : PerAxis Position := ⟨1200, 2000, 5000, 100000, 20000, 30000, 40000⟩

def parked : OwnClaim := ⟨⟨⟨3, 6, 6, 9⟩, .parked, .held⟩, 0⟩

/-- Pedestal 5, ACTIVE and at rest, off air, its list empty. -/
def active : State :=
  { State.reset with
    control := { State.reset.control with
      phase := .hearing, station := .active, number := 5, config := some testConfig, readEnded := true
      driveEnable := true, onlinePin := true }
    port := { State.reset.port with
      lastSetpoint := atRest, lastActual := atRest, answered := everyAxis true
      exchange := some ⟨atRest, everyAxis none⟩, servoTimer := true }
    bus := { State.reset.bus with heartbeat := true }
    tally := ⟨false, .current, true⟩
    claims := { State.reset.claims with own := [parked] } }

def faultStopped : State :=
  { active with
    control := { active.control with station := .faultStop, faultPin := true, driveEnable := false }
    faults := active.faults.set .driveFault ⟨true, false⟩ }

def offline : State :=
  { active with
    control := { active.control with station := .offline, driveEnable := false, onlinePin := false }
    port := { active.port with exchange := none, servoTimer := false }
    claims := State.reset.claims, bus := State.reset.bus }

def joining : State :=
  { active with
    control := { active.control with station := .joining, joinTimer := true }, claims := State.reset.claims
    bus := State.reset.bus }

/-- A frame of the cue station to pedestal 5, and one of a peer to all pedestals. -/
def fromCueTo5 : Header := ⟨0x05, 0x00⟩
def fromPeer9 : Header := ⟨0x1E, 0x09⟩
def fromTally : Header := ⟨0x1E, 0x1F⟩

/-- The floor move of the example in chapter 1.5, and no head axis. -/
def floorShot : ShotContent :=
  { targets := ⟨some 3100, some 4800, none, none, none, none, none⟩
    moveTime := none, routeHint := .xFirst, livePermitted := false, label := [0x44] }

/-- Its plan, built and its route chosen. -/
def floorPlan : Plan := { buildPlan testConfig atRest floorShot with chosen := some 0 }

def legClaims (state : ClaimState) : List OwnClaim :=
  [⟨⟨⟨3, 14, 6, 9⟩, .leg, state⟩, 1⟩, ⟨⟨⟨10, 14, 6, 20⟩, .leg, state⟩, 2⟩]

/-- The head entry of shot 7 with its plan. -/
def entry (stage : Stage) : CueEntry :=
  { tag := 0x11, shot := 7, priority := 1, mode := .onTake, group := none, take := false, stage := stage, retry := 0
    copy := some floorShot, plan := some floorPlan, deferralReported := false, ending := none }

/-- An entry behind it, not yet planned. -/
def waiting (tag : Byte) : CueEntry :=
  { entry .queued with tag := tag, shot := 8, copy := none, plan := none }

def groupEntry (stage : Stage) : CueEntry := { entry stage with mode := .group, group := some 5 }

def record (state : GroupState) : GroupRecord := ⟨5, [⟨2, none⟩, ⟨5, none⟩, ⟨9, none⟩], state, none, none⟩

def claimed : State :=
  { active with
    cues := [entry .claimed]
    claims := { active.claims with own := [{ parked with claim := parked.claim }] ++ legClaims .held } }

def claiming : State :=
  { active with
    cues := [entry .claiming]
    claims := { active.claims with
      own := [parked] ++ legClaims (.pending ⟨1, 0⟩), settleTimer := true, claimWaitTimer := true } }

def run : RunningPlan := runningPlanOf floorPlan false

def allReplied : Exchange := ⟨atRest, everyAxis (some 0)⟩

/-- The move running at profile time `t` and rate `r`. -/
def moving (motion : MotionState) (t r : Nat) (passed : Bool) : State :=
  { active with
    cues := [{ entry .running with take := true }]
    claims := { active.claims with own := legClaims .held }
    port := { active.port with exchange := some allReplied }
    profile := { active.profile with motion := motion, plan := some run, time := t, rate := r, leg1Passed := passed } }

/-- A state whose blanking windows have come to their expiry, with a pair of pan beyond E in the closed exchange. -/
def atBlanking (actual : Position) : State :=
  { active with
    port := { active.port with blanking := some 0, closed := some ⟨atRest, (everyAxis none).set .pan (some actual)⟩ } }

/-- A reply of a drive with its check word. -/
def reply (index : Byte) (position : Position) (status : Byte) : DriveReply :=
  { index := index, position := position, status := status
    check := replyCheck ⟨index, position, status, 0⟩ }

/-- The next state of a command, the state itself when it stops. -/
def after (c : Instr) (s : State) : State :=
  match exec c s with
  | .next t => t
  | _ => s

def label16 : List Byte := [0x44, 0x45, 0x53, 0x4B, 0x20, 0x54, 0x57, 0x4F, 0, 0, 0, 0, 0, 0, 0, 0]

/-- Record 5 of the example in chapter 2.3: pan and tilt, EITHER, "DESK TWO". -/
def deskTwo : RecordBody := ⟨0x18, 0x02, 0, ⟨0, 0, 0, 109000, 30000, 0, 0⟩, label16⟩

/-! ### Well-formedness -/

theorem test_wf_image : (Instr.configurationCheck 5 (List.replicate 104 0)).wellFormed = false := by decide
theorem test_wf_storeLabel :
    (Instr.storeShot fromCueTo5 5 { deskTwo with label := [0x44] }).wellFormed = false := by decide
theorem test_wf_captureLabel : (Instr.captureShot fromCueTo5 9 (List.replicate 17 0)).wellFormed = false := by decide
theorem test_wf_slots :
    (Instr.stateFrame fromPeer9 ⟨0, 0, 0, 0, 0, 0, 0, 0, 0, [⟨0, 0, 0, 0, 0, 0⟩]⟩).wellFormed = false := by decide
theorem test_wf_peer0 : (Instr.peerAgeExpiry 0).wellFormed = false := by decide
theorem test_wf_peer17 : (Instr.peerAgeExpiry 17).wellFormed = false := by decide
theorem test_wf_good : (Instr.storeShot fromCueTo5 5 deskTwo).wellFormed = true := by decide

/-! ### Bytes (R143, chapter 12) -/

/-- R143's polynomial, start value and bit order on the usual check string "123456789". -/
theorem test_crc : crc16 [0x31, 0x32, 0x33, 0x34, 0x35, 0x36, 0x37, 0x38, 0x39] = 0x29B1#16 := by decide +kernel

theorem test_receive_cue :
    receive [0x05, 0x00, 0x01, 0x06, 0x11, 0x07, 0x09, 0x05, 0x04, 0x22, 0x2D, 0x2C] =
      .cue ⟨5, 0⟩ ⟨0x11, 7, 0x09, 5, 0x0422⟩ := by decide +kernel
/-- Mode byte 0x09: priority 1, start mode 2, GROUP; members 0x0422: pedestals 2, 6 and 11. -/
theorem test_cue_fields :
    cuePriority 0x09 = 1 ∧ cueStartMode 0x09 = some .group ∧ pedestalsOf 0x0422 = [2, 6, 11] ∧
      cueStartMode 0x0C = none := by decide
theorem test_receive_take : receive [0x05, 0x00, 0x02, 0x01, 0x11, 0x6D, 0x1A] = .take ⟨5, 0⟩ 0x11 := by decide +kernel
theorem test_receive_groupTake :
    receive [0x1E, 0x00, 0x03, 0x01, 0x05, 0xE0, 0x3A] = .groupTake ⟨0x1E, 0⟩ 5 := by decide +kernel
theorem test_receive_cancel :
    receive [0x05, 0x00, 0x04, 0x02, 0x00, 0x11, 0xEB, 0x90] = .cancel ⟨5, 0⟩ 0x11 := by decide +kernel
theorem test_receive_cancelAll :
    receive [0x05, 0x00, 0x04, 0x02, 0x01, 0x11, 0xD8, 0xA1] = .cancelAll ⟨5, 0⟩ := by decide +kernel
theorem test_receive_hold : receive [0x1E, 0x00, 0x05, 0x00, 0xC2, 0xC8] = .hold ⟨0x1E, 0⟩ := by decide +kernel
theorem test_receive_resume : receive [0x1E, 0x00, 0x06, 0x00, 0x97, 0x9B] = .resume ⟨0x1E, 0⟩ := by decide +kernel
theorem test_receive_storeShot :
    receive
      [0x05, 0x00, 0x07, 0x2A, 0x05, 0x18, 0x02, 0x00, 0x00, 0x00, 0x00, 0x00, 0x00, 0x00, 0x00, 0x00, 0x00, 0x00,
        0x01, 0xA9, 0xC8, 0x00, 0x75, 0x30, 0x00, 0x00, 0x00, 0x00, 0x00, 0x00, 0x44, 0x45, 0x53, 0x4B, 0x20, 0x54,
        0x57, 0x4F, 0x00, 0x00, 0x00, 0x00, 0x00, 0x00, 0x00, 0x00, 0x79, 0x09] =
      .storeShot ⟨5, 0⟩ 5 deskTwo := by decide +kernel
theorem test_receive_captureShot :
    receive
      [0x05, 0x00, 0x08, 0x11, 0x09, 0x57, 0x49, 0x44, 0x45, 0x20, 0x4C, 0x4F, 0x57, 0x00, 0x00, 0x00, 0x00, 0x00,
        0x00, 0x00, 0x00, 0x68, 0x04] =
      .captureShot ⟨5, 0⟩ 9 [0x57, 0x49, 0x44, 0x45, 0x20, 0x4C, 0x4F, 0x57, 0, 0, 0, 0, 0, 0, 0, 0] := by
  decide +kernel
theorem test_receive_eraseShot :
    receive [0x05, 0x00, 0x09, 0x01, 0x1E, 0x6C, 0x04] = .eraseShot ⟨5, 0⟩ 30 := by decide +kernel
theorem test_receive_readShot :
    receive [0x05, 0x00, 0x0A, 0x02, 0x7D, 0x06, 0x55, 0x19] = .readShot ⟨5, 0⟩ 125 6 := by decide +kernel
theorem test_receive_clearFaults :
    receive [0x05, 0x00, 0x0B, 0x02, 0x00, 0x03, 0x0D, 0x0D] = .clearFaults ⟨5, 0⟩ 3 := by decide +kernel
theorem test_receive_forgetPeer :
    receive [0x05, 0x00, 0x0C, 0x01, 0x09, 0xE5, 0x22] = .forgetPeer ⟨5, 0⟩ 9 := by decide +kernel
theorem test_receive_online : receive [0x1E, 0x00, 0x0D, 0x00, 0x4B, 0x61] = .online ⟨0x1E, 0⟩ := by decide +kernel
theorem test_receive_restart : receive [0x05, 0x00, 0x0E, 0x00, 0x1B, 0x8A] = .restart ⟨5, 0⟩ := by decide +kernel
theorem test_receive_tally :
    receive [0x1E, 0x1F, 0x20, 0x02, 0x00, 0x10, 0xBE, 0x8B] = .tally ⟨0x1E, 0x1F⟩ 0x0010 := by decide +kernel
theorem test_receive_ready :
    receive [0x1E, 0x02, 0x31, 0x06, 0x05, 0x11, 0x0F, 0xA0, 0x14, 0x00, 0x61, 0xD9] =
      .ready ⟨0x1E, 2⟩ ⟨5, 0x11, 4000, 20, 0⟩ := by decide +kernel
theorem test_receive_report :
    receive [0x00, 0x03, 0x32, 0x03, 0x01, 0x00, 0x00, 0xDB, 0xAF] = .frameHeardNotTaken ⟨0, 3⟩ := by decide +kernel
theorem test_receive_badCheck : receive [0x1E, 0x00, 0x05, 0x00, 0xC2, 0xC9] = .frameDiscarded := by decide +kernel

/-- The 45-byte STATE frame from pedestal 3 with the slot of the example in chapter 12.3. -/
def stateFrom3 : List Byte :=
  [0x1E, 0x03, 0x30, 0x27, 0x12, 0x00, 0x00, 0x00, 0x00, 0x04, 0xB0, 0x00, 0x07, 0xD0, 0x00, 0x00, 0x00, 0x00, 0x01,
    0x03, 0x06, 0x0E, 0x09, 0x05, 0x10, 0x00, 0x00, 0x00, 0x00, 0x00, 0x00, 0x00, 0x00, 0x00, 0x00, 0x00, 0x00, 0x00,
    0x00, 0x00, 0x00, 0x00, 0x00, 0x76, 0x3C]

theorem test_receive_stateFrame :
    (match receive stateFrom3 with
      | .stateFrame h p => (sourceOf h, payloadClaims p)
      | _ => (0, [])) = (3, [⟨⟨3, 14, 6, 9⟩, .leg, .pending ⟨1, 0⟩⟩]) := by decide +kernel

/-- What pedestal 3 sends with that claim, ACTIVE and on air, at (1,200, 2,000). -/
theorem test_send_stateFrame :
    frameBytes 3
      (.state
        { station := .active, motion := .idle, onAir := true, floorX := 1200, floorY := 2000
          claims := [⟨⟨3, 14, 6, 9⟩, .leg, .pending ⟨1, 0⟩⟩], head := none, listLength := 0, faults := noFaults
          reportsLost := false, hold := false }) = stateFrom3 := by decide +kernel

/-- A setpoint request for pan. -/
theorem test_setpointRequest : requestBytes (.setpoint .pan 100000) = [0x03, 0x01, 0x86, 0xA0, 0x2C, 0xF8] := by
  decide +kernel
theorem test_replyCheck : replyCheck ⟨3, 100001, 0, 0⟩ = 0x2EDF#16 := by decide +kernel
theorem test_emptyRecord : emptyArea = List.replicate 42 0 ++ [0xBE, 0x39] := by decide +kernel
/-- Tilt's block and the class settings of the example in chapter 12.5. -/
theorem test_imageFields :
    let image := List.replicate 48 0 ++ [0x00, 0x0F, 0xA0, 0x00, 0xEA, 0x60] ++ List.replicate 42 0 ++ [0x81, 0x84]
    (axisBlock image .tilt).softMin = 4000 ∧ (axisBlock image .tilt).softMax = 60000 ∧
      classSetting image .axisLimit = ⟨.stop, true⟩ ∧ classSetting image .floorOverlap = ⟨.report, true⟩ := by decide

/-! ### Arithmetic (chapters 1, 4, 7) -/

/-- The table of R12. -/
theorem test_footprint :
    footprint 400 ⟨1200, 2000⟩ = ⟨3, 6, 6, 9⟩ ∧ footprint 300 ⟨150, 4000⟩ = ⟨0, 1, 14, 17⟩ ∧
      footprint 600 ⟨7900, 7999⟩ = ⟨29, 31, 29, 31⟩ ∧ footprint 100 ⟨1000, 1000⟩ = ⟨3, 4, 3, 4⟩ := by decide
/-- The examples of R13 and R73. -/
theorem test_rectangles :
    Rect.inter ⟨3, 6, 6, 9⟩ ⟨5, 8, 9, 12⟩ = ⟨5, 6, 9, 9⟩ ∧ Rect.intersects ⟨3, 6, 6, 9⟩ ⟨7, 8, 6, 9⟩ = false ∧
      Rect.bound ⟨3, 6, 6, 9⟩ ⟨7, 8, 6, 9⟩ = ⟨3, 8, 6, 9⟩ ∧
      meetsOutside ⟨14, 17, 2, 13⟩ ⟨3, 14, 6, 9⟩ (some ⟨14, 17, 2, 5⟩) = true ∧
      meetsOutside ⟨14, 21, 20, 23⟩ ⟨10, 14, 17, 20⟩ (some ⟨14, 17, 20, 23⟩) = false := by decide
/-- The table of R55. -/
theorem test_durations :
    speedDuration 9000 60 = 200 ∧ accelDuration 9000 128 = 310 ∧ speedDuration 1200 40 = 40 ∧
      accelDuration 1200 256 = 80 ∧ speedDuration 20000 200 = 134 ∧ accelDuration 20000 1024 = 164 := by decide +kernel
/-- The legs of the example of R14 and the split of the example of R60. -/
theorem test_legs :
    (buildPlan testConfig atRest floorShot).candidates.map (fun r => r.legs.map Leg.rect) =
      [[⟨3, 14, 6, 9⟩, ⟨10, 14, 6, 20⟩]] := by decide +kernel
theorem test_split :
    (splitRoute 8000 [legOf 400 .x ⟨0, 0⟩ ⟨1, 0⟩ 2534, legOf 400 .y ⟨1, 0⟩ ⟨1, 1⟩ 3734]).n1 = 3234 ∧
      (splitRoute 8000 [legOf 400 .y ⟨0, 0⟩ ⟨0, 1⟩ 3734, legOf 400 .x ⟨0, 1⟩ ⟨1, 1⟩ 2534]).n2 = 3235 := by decide
/-- The table of R67: pan from 100,000 by 9,000 in 310 ms. -/
theorem test_setpoints :
    profileOffset 9000 79360 0 = 0 ∧ profileOffset 9000 79360 12800 = 624 ∧ profileOffset 9000 79360 25600 = 2371 ∧
      profileOffset 9000 79360 79360 = 9000 := by decide +kernel
/-- The example of R116. -/
theorem test_rates :
    (List.range 11).map (fun k => (stepToward 24 0)^[k + 1] 256) = [232, 208, 184, 160, 136, 112, 88, 64, 40, 16, 0] := by
  decide
/-- The example of R117. -/
theorem test_leg1Time :
    advanceTime { run with route := { run.route with n1 := 3234 }, duration := 8000 } false false 827800 256 = 827904 ∧
      advanceTime { run with route := { run.route with n1 := 3234 }, duration := 8000 } false true 827904 256 =
        828160 := by decide +kernel
/-- The clamping example of chapter 1.6: tilt 1,500 absent to 4,000, zoom 950,000 to 900,000. -/
theorem test_clamping :
    clampTo ⟨4000, 60000, 1, 1, 1⟩ (wantedPosition none 1500) = 4000 ∧
      clampTo ⟨2000, 900000, 1, 1, 1⟩ (wantedPosition (some 950000) 880000) = 900000 ∧
      outsideLimits ⟨0, 900000, 1, 1, 1⟩ 109000 = false := by decide
/-- The gaps of R151's example: pedestals 3 and 5 in class 0, 12 in class 1, the tally station in class 2. -/
theorem test_gaps : gap 0 3 = 11 ∧ gap 0 5 = 13 ∧ gap 1 12 = 52 ∧ gap 2 31 = 103 := by decide

/-! ### One step of each command -/

theorem test_powerOn : (after .powerOn claimed).cues = [] ∧ (after .powerOn claimed).control.phase = .readingConfiguration := by
  decide +kernel
theorem test_pinReset : (after .pinReset active).control.driveEnable = false := by decide +kernel
theorem test_resetAsserted : (after .resetAsserted active).control.phase = .heldInReset := by decide +kernel
theorem test_powerLoss : (after .powerLoss active).control.phase = .unpowered := by decide +kernel
/-- A pin held asserted through a power-on keeps the part in reset until its release (R175, R184). -/
theorem test_powerOn_pinHeld :
    let s := after .powerOn (after .resetAsserted (after .powerLoss active))
    s.control.phase = .heldInReset ∧ (after .pinReset s).control.phase = .readingConfiguration := by decide +kernel
/-- A third abandon makes the image unreadable. -/
theorem test_configTransferAbandon :
    let s := after .configTransferAbandon (after .configTransferAbandon (after .configTransferAbandon State.reset))
    s.control.transferAbandons = 3 ∧ (after (.configurationCheck 5 []) s).control.configBadPin = true := by decide +kernel
/-- A wrong image leaves the part with CONFIG_BAD asserted and the number of its straps. -/
theorem test_configurationCheck :
    let s := after (.configurationCheck 5 (List.replicate 105 0)) State.reset
    s.control.number = 5 ∧ s.control.config = none ∧ s.control.configBadPin = true := by decide +kernel
/-- An area whose check word fails is marked and reported (the example "a write cut short"). -/
theorem test_startUpCheck :
    let s := after .startUpCheck
      { State.reset with
        control := { State.reset.control with phase := .checkingStore }
        store := { State.reset.store with areas := [(7, List.replicate 44 1)] } }
    s.store.corrupt = [7] ∧ s.bus.reportFifo = [.fault .storeCorrupt (.shot 7)] ∧ s.tally.timer = true := by
  decide +kernel
theorem test_positionReadInterval :
    (after .positionReadInterval
      { offline with
        control := { offline.control with readEnded := false }
        port := { offline.port with answered := (everyAxis true).set .tilt false } }).port.requests = [.read .tilt] := by
  decide +kernel
/-- R6's pairing: a reply is compared with the setpoint of the expiry before (the example in chapter 1.2). -/
theorem test_driveReply :
    (after (.driveReply (reply 3 100001 0)) active).port.lastActual.pan = 100001 ∧
      (after (.driveReply (reply 3 100041 0)) active).bus.reportFifo = [.fault .followingError (.axis .pan)] := by
  decide +kernel
/-- A missing reply: DRIVE_FAULT at the expiry, one report and FAULT_STOP (R7, R8, R166). -/
theorem test_servoPeriodExpiry :
    let s := after .servoPeriodExpiry
      { active with port := { active.port with exchange := some ⟨atRest, (everyAxis (some 0)).set .pan none⟩ } }
    s.port.driveStatus.pan = .fault ∧ s.bus.reportFifo = [.fault .driveFault (.axis .pan)] ∧
      s.control.station = .faultStop := by decide +kernel
/-- Profile time grows by the new rate, 200 + 24. -/
theorem test_servoPeriodExpiry_moving :
    (after .servoPeriodExpiry (moving .running 1000 200 false)).profile.time = 1224 := by decide +kernel
/-- The example of R129: 100,260 against 100,200 with E = 40. -/
theorem test_blankingWindowExpiry :
    (after .blankingWindowExpiry (atBlanking 100060)).bus.reportFifo = [.fault .followingError (.axis .pan)] ∧
      (after .blankingWindowExpiry (atBlanking 100040)).bus.reportFifo = [] := by decide +kernel
theorem test_frameDiscarded : after .frameDiscarded claimed = claimed := by decide +kernel
theorem test_duplicateStationEvent :
    (after .duplicateStationEvent joining).control.station = .offline ∧
      (after .duplicateStationEvent active).control.station = .faultStop := by decide +kernel
theorem test_frameHeardNotTaken :
    (after (.frameHeardNotTaken fromPeer9) { active with bus := { active.bus with spent := true } }).bus.spent = false := by
  decide +kernel
/-- A CUE for a VALID record is planned and its legs are announced. -/
theorem test_cue :
    let s := after (.cue fromCueTo5 ⟨0x11, 7, 0x05, 0, 0⟩)
      { active with store := { active.store with areas := [(7, storedForm (.valid floorShot))] } }
    s.cues.map CueEntry.stage = [.claiming] ∧
      s.claims.own = parked :: legClaims (.pending ⟨1, 0⟩) := by decide +kernel
theorem test_cue_emptyShot :
    (after (.cue fromCueTo5 ⟨0x11, 7, 0x05, 0, 0⟩) active).bus.reportFifo = [.cue 0x11 (.failed .badShot)] := by
  decide +kernel
theorem test_take :
    let s := after (.take fromCueTo5 0x11) claimed
    s.bus.reportFifo = [.cue 0x11 .started] ∧ s.profile.motion = .running ∧ s.claims.own = legClaims .held := by
  decide +kernel
theorem test_take_onAir :
    (after (.take fromCueTo5 0x11) { claimed with tally := ⟨true, .current, true⟩ }).bus.reportFifo =
      [.cue 0x11 .deferred] := by decide +kernel
theorem test_groupTake :
    let s := after (.groupTake fromCueTo5 5)
      { claimed with cues := [groupEntry .claimed], groups := ⟨[record .collecting], false, none⟩ }
    s.bus.readyFifo = [⟨5, 0x11, floorPlan.duration, 20, false, false⟩] ∧ s.groups.waitTimer = true := by decide +kernel
theorem test_cancel :
    (after (.cancel fromCueTo5 0x11) claimed).bus.reportFifo = [.cue 0x11 .cancelled] ∧
      (after (.cancel fromCueTo5 0x11) claimed).claims.own = [parked] := by decide +kernel
theorem test_cancelAll :
    (after (.cancelAll fromCueTo5) { claimed with cues := [entry .claimed, waiting 2] }).bus.reportFifo =
      [.cue 0x11 .cancelled, .cue 2 .cancelled] := by decide +kernel
theorem test_hold :
    (after (.hold fromCueTo5) active).profile.hold = true ∧ (after (.hold fromPeer9) active).profile.hold = false := by
  decide +kernel
theorem test_resume :
    let s := moving .held 1000 0 false
    (after (.resume fromCueTo5) { s with profile := { s.profile with hold := true } }).profile.motion = .running := by
  decide +kernel
theorem test_storeShot :
    (after (.storeShot fromCueTo5 5 deskTwo) active).store.write = some ⟨5, .valid (bodyContent deskTwo)⟩ ∧
      (after (.storeShot fromCueTo5 128 deskTwo) active).bus.reportFifo = [.store 128 .badNumber] := by decide +kernel
/-- The example of R22: the same fields with an absent axis's target are the same content. -/
theorem test_storeShot_unchanged :
    (after (.storeShot fromCueTo5 5 { deskTwo with targets := { deskTwo.targets with zoom := 777 } })
      { active with
        store := { active.store with areas := [(5, storedForm (.valid (bodyContent deskTwo)))] } }).bus.reportFifo =
      [.store 5 .unchanged] := by decide +kernel
theorem test_captureShot :
    (after (.captureShot fromCueTo5 9 label16) (moving .running 1000 256 false)).bus.reportFifo = [.store 9 .notIdle] := by
  decide +kernel
theorem test_eraseShot : (after (.eraseShot fromCueTo5 30) active).bus.reportFifo = [.store 30 .unchanged] := by
  decide +kernel
theorem test_readShot :
    (after (.readShot fromCueTo5 125 9) active).bus.cursor = ⟨125, 8⟩ ∧
      (after (.readShot fromCueTo5 128 6) active).bus.cursor = ⟨128, 1⟩ := by decide +kernel
theorem test_writeCompletion :
    let s := after (.writeCompletion true)
      { active with store := { active.store with write := some ⟨7, .valid floorShot⟩, corrupt := [7] } }
    recordOf s.store 7 = .valid floorShot ∧ s.bus.reportFifo = [.store 7 .written] := by decide +kernel
theorem test_clearFaults :
    (after (.clearFaults fromCueTo5 2) faultStopped).control.station = .active ∧
      (after (.clearFaults fromCueTo5 1) faultStopped).control.station = .faultStop := by decide +kernel
theorem test_forgetPeer :
    (after (.forgetPeer fromCueTo5 9) { active with peers := [⟨9, .lost, []⟩, ⟨12, .live, []⟩] }).peers =
      [⟨12, .live, []⟩] := by decide +kernel
theorem test_online :
    (after (.online fromCueTo5) offline).control.station = .joining ∧
      (after (.online fromCueTo5) { offline with
        control := { offline.control with identityConflict := true } }).control.station = .offline := by decide +kernel
theorem test_restart :
    (after (.restart fromCueTo5) claimed).control.station = .joining ∧
      (after (.restart fromCueTo5) claimed).cues = [] ∧
      (after (.restart fromCueTo5) (moving .running 1000 256 false)).profile.stopKind = some .restart := by decide +kernel
theorem test_tally :
    (after (.tally fromTally 0x0010) active).tally.onAir = true ∧
      (after (.tally fromPeer9 0x0010) active).tally.onAir = false := by decide +kernel

/-- A STATE payload with one rectangle. -/
def oneClaim (slot : ClaimSlot) : StatePayload :=
  ⟨0, 0, 0, 0, 0, 0, 0, 0, 1, [slot, ⟨0, 0, 0, 0, 0, 0⟩, ⟨0, 0, 0, 0, 0, 0⟩, ⟨0, 0, 0, 0, 0, 0⟩]⟩

/-- A pending rectangle of rank (2, 0) beats the rank (1, 0) of a CLAIMING entry whose leg it meets. -/
theorem test_stateFrame :
    let s := after (.stateFrame fromPeer9 (oneClaim ⟨10, 6, 11, 7, 5, 0x20⟩)) claiming
    s.cues.map CueEntry.stage = [.routing] ∧ s.cues.map CueEntry.retry = [1] ∧ s.claims.own = [parked] := by
  decide +kernel
theorem test_stateFrame_overlap :
    let s := after (.stateFrame fromPeer9 (oneClaim ⟨5, 9, 8, 12, 0, 0⟩)) active
    s.claims.overlap = [9] ∧ s.bus.reportFifo = [.fault .floorOverlap (.peer 9)] := by decide +kernel

/-- A group whose last readiness is to come from pedestal 9. -/
def lastMissing (state : GroupState) : GroupRecord := ⟨5, [⟨5, some (5000, 15)⟩, ⟨9, none⟩], state, none, none⟩

def inGroupWait (state : GroupState) : State :=
  { claimed with cues := [groupEntry .groupWait], groups := ⟨[lastMissing state], true, none⟩ }

/-- The start event fixes the greatest N and G recorded. -/
theorem test_ready :
    let s := after (.ready fromPeer9 ⟨5, 0x22, 4000, 20, 0⟩) (inGroupWait .collecting)
    s.groups.records.map GroupRecord.commonN = [some 5000] ∧ s.groups.startDelay = some 20 := by decide +kernel
theorem test_ready_withdrawn :
    (after (.ready fromPeer9 ⟨5, 0x22, 0, 0, 1⟩) (inGroupWait .collecting)).bus.reportFifo =
      [.cue 0x11 (.failed .groupAbandoned)] := by decide +kernel
/-- Pedestal 5's class 0 gap is 13 µs. -/
theorem test_transmissionStart :
    let s := { active with bus := { active.bus with stateMarker := true } }
    (after (.transmissionStart 12) s).bus.driverEnable = false ∧
      (after (.transmissionStart 13) s).bus.stateMarker = false := by decide +kernel
/-- A run wraps from record 127 to 0 (R27). -/
theorem test_transmissionCompletion :
    (after .transmissionCompletion
      { active with
        bus := { active.bus with
          cursor := ⟨127, 4⟩
          transmission := some ⟨.shotData 127 .empty emptyBody, [], false, false, false⟩ } }).bus.cursor = ⟨0, 3⟩ := by
  decide +kernel
theorem test_abandon :
    let s := { active with
      bus := { active.bus with
        abandonCount := 15, reportFifo := [.store 1 .written]
        transmission := some ⟨.report (.store 1 .written), [], false, false, false⟩ } }
    (after .abandon s).bus.reportFifo = [.store 1 .written, .fault .busContention .nothing] ∧
      (after .abandon s).bus.abandonCount = 0 := by decide +kernel
theorem test_spentIdleExpiry :
    (after .spentIdleExpiry { active with bus := { active.bus with spent := true } }).bus.spent = false := by
  decide +kernel
theorem test_settleExpiry :
    (after .settleExpiry claiming).claims.own = parked :: legClaims .held ∧
      (after .settleExpiry claiming).claims.claimWaitTimer = false := by decide +kernel
theorem test_claimWaitExpiry :
    (after .claimWaitExpiry claiming).bus.reportFifo = [.cue 0x11 (.failed .floorTimeout)] := by decide +kernel
/-- A ROUTING entry owns no rectangle; the marker is set all the same (R77). -/
theorem test_claimWaitExpiry_routing :
    (after .claimWaitExpiry
      { active with
        cues := [entry .routing], claims := { active.claims with claimWaitTimer := true } }).bus.stateMarker = true := by
  decide +kernel
theorem test_groupWaitExpiry :
    (after .groupWaitExpiry (inGroupWait .collecting)).bus.readyFifo = [⟨5, 0x11, 0, 0, true, false⟩] := by
  decide +kernel
theorem test_startDelayExpiry :
    let s := inGroupWait .starting
    (after .startDelayExpiry { s with groups := { s.groups with startDelay := some 20 } }).profile.motion = .running := by
  decide +kernel
theorem test_tallyAgeExpiry :
    (after .tallyAgeExpiry active).tally = ⟨true, .lost, false⟩ ∧
      (after .tallyAgeExpiry active).bus.reportFifo = [.fault .tallyLost .nothing] := by decide +kernel
theorem test_peerAgeExpiry :
    (after (.peerAgeExpiry 9) { active with peers := [⟨9, .live, [parked.claim]⟩] }).peers =
      [⟨9, .lost, [parked.claim]⟩] := by decide +kernel
theorem test_heartbeatExpiry : (after .heartbeatExpiry active).bus.stateMarker = true := by decide +kernel
theorem test_joinTimerExpiry :
    (after .joinTimerExpiry joining).control.station = .active ∧
      (after .joinTimerExpiry joining).claims.own = [parked] := by decide +kernel

/-! ### Witnesses: for each statement with hypotheses, values that meet them together -/

/-- An image that passes the check: every axis 0 to 7,999, V, Aq and E 1; r 400, L 96, S 24, S_f 64, W 40, claim wait "4 s",
2,000 ms, G 20. -/
def validImage : List Byte :=
  withCheck
    ((List.replicate 7 [0x00, 0x00, 0x00, 0x00, 0x1F, 0x3F, 0x00, 0x01, 0x00, 0x01, 0x00, 0x01]).flatten ++
      [0x01, 0x90, 0x00, 0x60, 24, 64, 40, 2, 0x07, 0xD0, 20, 1, 0, 0, 0, 0, 0, 0, 0])

def writingShot : State := { active with store := { active.store with write := some ⟨7, .valid floorShot⟩ } }

def checkingStore : State := { State.reset with control := { State.reset.control with phase := .checkingStore, number := 5 } }

def readingPositions (answered : PerAxis Bool) : State :=
  { offline with
    control := { offline.control with readEnded := false }, port := { offline.port with answered := answered } }

def spl : StatePayload := oneClaim ⟨10, 6, 11, 7, 0, 0⟩

/-- The chosen route's first leg, and a peer's rectangle that meets it outside the start footprint. -/
def firstLeg : Leg := legOf 400 .x ⟨1200, 2000⟩ ⟨3100, 2000⟩ (floorPlan.axisDuration.x)

def peerRect (state : ClaimState) : Claim := ⟨⟨10, 11, 6, 7⟩, .parked, state⟩

theorem witness_PowerOnClearsVolatileState :
    active.store.write = none ∧ active.control.phase ≠ .unpowered ∧ active.control.resetPin = false ∧
      (after .powerLoss active).control.phase = .unpowered := by decide +kernel

theorem witness_ResetAndPowerLossEndEverything_reset :
    active.control.phase ≠ .unpowered ∧ active.store.write = none ∧
      (after .resetAsserted (after .powerLoss active)).control.resetPin = true := by decide +kernel

theorem witness_CutWriteLeavesMixture :
    writingShot.store.write = some ⟨7, .valid floorShot⟩ ∧ writingShot.control.phase ≠ .unpowered := by decide +kernel

theorem witness_ConfigurationCheckHoldsValues :
    State.reset.control.phase = .readingConfiguration ∧ State.reset.control.transferAbandons < 3 ∧
      3 ≤ { State.reset.control with transferAbandons := 3 }.transferAbandons := by decide

theorem witness_ConfigurationValidExactlyByTests :
    validImage.length = 105 ∧ (checkConfiguration 5 validImage).isSome = true ∧
      checkConfiguration 0 validImage = none ∧ checkConfiguration 17 validImage = none := by decide +kernel

theorem witness_StartUpCheckMarksDamagedRecords :
    checkingStore.control.phase = .checkingStore ∧ checkingStore.control.station = .offline ∧
      checkingStore.faults.get .storeCorrupt = ⟨false, false⟩ ∧
      (settingOf checkingStore .storeCorrupt).masked = false ∧ checkingStore.bus.reportFifo = [] := by decide

theorem witness_PositionReadAsksUntilAnswered_first :
    let s := readingPositions (everyAxis false)
    let r := reply 3 100000 0
    hears s ∧ s.control.readEnded = false ∧ s.port.exchange = none ∧ r.check = replyCheck r ∧
      r.index.toNat = Axis.pan.index ∧ r.status = 0x00 ∧ s.port.answered.get .pan = false ∧
      s.port.answered.get .tilt = false := by decide +kernel

theorem witness_PositionReadAsksUntilAnswered_last :
    let s := readingPositions ((everyAxis true).set .pan false)
    hears s ∧ s.port.answered.get .pan = false ∧ s.control.station = .offline ∧
      ∀ b ∈ Axis.all, b ≠ .pan → s.port.answered.get b = true := by decide +kernel

theorem witness_RepliesDiscarded_badCheck :
    let r := { reply 3 100000 0 with check := 0 }
    hears active ∧ r.check ≠ replyCheck r := by decide +kernel

theorem witness_RepliesDiscarded_badIndex : hears active ∧ 6 < (reply 7 0 0).index.toNat := by decide +kernel

theorem witness_RepliesDiscarded_second :
    let s := moving .running 1000 256 false
    hears s ∧ s.port.exchange = some allReplied ∧ (reply 3 0 0).index.toNat = Axis.pan.index ∧
      allReplied.replies.get .pan = some 0 := by decide +kernel

theorem witness_RepliesDiscarded_answered :
    let s := readingPositions ((everyAxis false).set .pan true)
    hears s ∧ s.port.exchange = none ∧ s.control.readEnded = false ∧ (reply 3 0 0).index.toNat = Axis.pan.index ∧
      s.port.answered.get .pan = true := by decide +kernel

theorem witness_RepliesDiscarded_outside :
    hears offline ∧ offline.port.exchange = none ∧ offline.control.readEnded = true := by decide

theorem witness_ReplyInExchangeIsRecorded :
    let x : Exchange := ⟨atRest, everyAxis none⟩
    let r := reply 3 100040 0
    hears active ∧ active.port.exchange = some x ∧ x.replies.get .pan = none ∧ r.check = replyCheck r ∧
      r.index.toNat = Axis.pan.index ∧ r.status = 0x00 ∧
      followingError r.position (x.paired.get .pan) ≤ ((configOf active).axes.get .pan).error := by decide +kernel

theorem witness_ReplyInExchangeIsRecorded_fault :
    let x : Exchange := ⟨atRest, everyAxis none⟩
    let r := reply 3 100040 1
    let s := { moving .running 1000 256 false with port := active.port }
    hears s ∧ s.port.exchange = some x ∧ x.replies.get .pan = none ∧ r.check = replyCheck r ∧ r.status = 0x01 ∧
      followingError r.position (x.paired.get .pan) ≤ ((configOf s).axes.get .pan).error ∧
      (s.faults.get .driveFault).sticky = false ∧ s.control.station = .active ∧ headRunning s = true ∧
      hears joining ∧ joining.port.exchange = some x ∧ joining.control.station ≠ .active := by decide +kernel

theorem witness_FollowingErrorStopsTheMove_active :
    let x : Exchange := ⟨atRest, everyAxis none⟩
    let r := reply 3 100041 0
    hears active ∧ active.port.exchange = some x ∧ x.replies.get .pan = none ∧ r.check = replyCheck r ∧
      r.index.toNat = Axis.pan.index ∧ r.status = 0x00 ∧
      ((configOf active).axes.get .pan).error < followingError r.position (x.paired.get .pan) ∧
      active.port.blanking = none ∧ active.control.driveEnable = true ∧
      (settingOf active .followingError).severity = .stop ∧ active.control.station = .active ∧
      active.profile.motion = .idle := by decide +kernel

theorem witness_FollowingErrorStopsTheMove_moving :
    let s := { moving .running 1000 256 false with port := { active.port with exchange := some ⟨atRest, everyAxis none⟩ } }
    hears s ∧ s.port.exchange = some ⟨atRest, everyAxis none⟩ ∧ s.port.blanking = none ∧ s.control.driveEnable = true ∧
      s.control.station = .active ∧ s.profile.motion ≠ .idle := by decide +kernel

theorem witness_FollowingErrorStopsTheMove_joining :
    hears joining ∧ joining.port.exchange = some ⟨atRest, everyAxis none⟩ ∧ joining.port.blanking = none ∧
      joining.control.driveEnable = true ∧ joining.control.station ≠ .active := by decide +kernel

theorem witness_ServoPeriodWithoutMoveResendsSetpoints :
    let s := { active with port := { active.port with exchange := some allReplied } }
    hears s ∧ s.port.servoTimer = true ∧ s.profile.motion = .idle ∧ s.port.exchange = some allReplied ∧
      ∀ a ∈ Axis.all, allReplied.replies.get a ≠ none := by decide +kernel

theorem witness_MissedReplyRaisesDriveFault :
    let x : Exchange := ⟨atRest, everyAxis none⟩
    hears active ∧ active.port.servoTimer = true ∧ active.port.exchange = some x ∧ x.replies.get .pan = none := by decide

theorem witness_ServoPeriodAdvancesTheMove :
    let s := moving .running 1000 200 false
    let time := s.profile.time + stepToward (rateStep s) (rateTarget s) s.profile.rate
    hears s ∧ s.port.servoTimer = true ∧ s.port.exchange = some allReplied ∧ s.profile.motion ≠ .idle ∧
      s.profile.plan = some run ∧ (twoLegs run = true ∧ s.profile.leg1Passed = false → time < leg1End run) ∧
      time < moveEnd run ∧ (s.profile.motion = .stopping → 0 < stepToward (rateStep s) (rateTarget s) 200) := by
  decide +kernel

theorem witness_EndOfLegOneReleasesItsRectangle :
    let s := moving .running (leg1End run - 100) 200 false
    hears s ∧ s.port.servoTimer = true ∧ s.port.exchange = some allReplied ∧ s.profile.motion = .running ∧
      s.profile.plan = some run ∧ s.peers = [] ∧ twoLegs run = true ∧ s.profile.leg1Passed = false ∧
      leg1End run < moveEnd run ∧
      leg1End run ≤ s.profile.time + stepToward (rateStep s) (rateTarget s) s.profile.rate := by decide +kernel

theorem witness_CompletionEndsTheMove :
    let s := moving .running (moveEnd run - 100) 200 true
    let r := stepToward (rateStep s) (rateTarget s) s.profile.rate
    hears s ∧ s.port.servoTimer = true ∧ s.profile.motion = .running ∧ s.profile.plan = some run ∧
      s.cues = [{ entry .running with take := true }] ∧ (twoLegs run = true → s.profile.leg1Passed = true) ∧
      moveEnd run ≤ s.profile.time + r ∧ 0 < r ∧ s.bus.reportFifo.length < 8 := by decide +kernel

/-- The move back, and an entry for it behind the head, planned from the head's targets. -/
def backShot : ShotContent := { floorShot with targets := ⟨some 1200, some 2000, none, none, none, none, none⟩ }

def second (stage : Stage) : CueEntry :=
  { entry stage with
    tag := 0x22, shot := 8, copy := some backShot
    plan := some { buildPlan testConfig floorPlan.target backShot with chosen := some 0 } }

/-- The last period of the running move, every reply in, an entry behind it. -/
def atEnd (f : CueEntry) (record8 : Record) : State :=
  { moving .running (moveEnd run - 100) 200 true with
    cues := [{ entry .running with take := true }, f]
    store := { active.store with areas := writeArea 8 (storedForm record8) [] } }

theorem witness_CompletionEndsTheMove_second :
    let s := atEnd (second .claiming) .empty
    let r := stepToward (rateStep s) (rateTarget s) s.profile.rate
    hears s ∧ s.profile.plan = some run ∧ s.port.exchange = some allReplied ∧
      (∀ a ∈ Axis.all, allReplied.replies.get a ≠ none) ∧ s.peers = [] ∧ moveEnd run ≤ s.profile.time + r ∧ 0 < r ∧
      s.control.station = .active ∧ s.control.restartPending = false ∧ s.tally.onAir = false ∧
      (second .claiming).take = false ∧ (second .claiming).copy = some backShot ∧ backShot.livePermitted = false ∧
      s.bus.reportFifo.length < 7 ∧ s.bus.readyFifo.length < 4 ∧
      ∀ q, (second .claimed).plan = some q → (chosenRoute q).legs ≠ [] ∧ 1 ≤ q.common.getD q.duration := by
  refine ⟨?_, ?_, ?_, ?_, ?_, ?_, ?_, ?_, ?_, ?_, ?_, ?_, ?_, ?_, ?_, fun q h => ?_⟩
  on_goal 16 => cases h
  all_goals decide +kernel

theorem witness_CompletionEndsTheMove_queued :
    let s := atEnd (waiting 0x22) (.valid backShot)
    let final := setpointsAt run (moveEnd run)
    (waiting 0x22).stage = .queued ∧ s.control.station = .active ∧ writing s.store 8 = false ∧
      recordOf s.store 8 = .valid backShot ∧ limitAxes s final backShot = [] ∧
      (buildPlan (configOf s) final backShot).duration ≤ 65535 ∧
      ((buildPlan (configOf s) final backShot).candidates[0]?).isSome = true ∧
      recordOf (atEnd (waiting 0x22) .empty).store 8 = .empty := by decide +kernel

/-- A fault stop at its last period. -/
def stoppingState (station : StationState) (faults : PerClass FaultFlags) : State :=
  let s := moving .stopping 3000 20 false
  { s with
    control := { s.control with station := station }
    profile := { s.profile with stopKind := some .fault }
    cues := [{ entry .running with take := true, ending := some (.failed .fault) }]
    faults := faults }

theorem witness_StopCompletionEndsTheMove :
    let s := stoppingState .faultStop noFaults
    let e := { entry .running with take := true, ending := some (.failed .fault) }
    hears s ∧ s.port.servoTimer = true ∧ s.port.exchange = some allReplied ∧ s.profile.motion = .stopping ∧
      s.profile.plan = some run ∧ s.cues = [e] ∧ e.ending = some (.failed .fault) ∧ s.peers = [] ∧
      s.control.restartPending = false ∧
      (twoLegs run = true ∧ s.profile.leg1Passed = false → s.profile.time < leg1End run) ∧
      s.profile.time < moveEnd run ∧ stepToward (rateStep s) (rateTarget s) s.profile.rate = 0 ∧
      stopFlagSet s = false := by decide +kernel

theorem witness_StopCompletionEndsTheMove_second :
    let s := { stoppingState .active noFaults with
      cues := [{ entry .running with ending := some .cancelled }, second .claiming]
      store := { active.store with areas := [(8, storedForm (.valid backShot))] } }
    let final := setpointsAt run s.profile.time
    hears s ∧ s.peers = [] ∧ s.control.restartPending = false ∧ s.control.station = .active ∧
      stepToward (rateStep s) (rateTarget s) s.profile.rate = 0 ∧ (second .claiming).stage ≠ .queued ∧
      (second .claiming).shot = 8 ∧ writing s.store 8 = false ∧ recordOf s.store 8 = .valid backShot ∧
      limitAxes s final backShot = [] ∧ (second .claiming).take = false ∧
      (buildPlan (configOf s) final backShot).duration ≤ 65535 ∧
      ((buildPlan (configOf s) final backShot).candidates[0]?).isSome = true ∧
      recordOf (stoppingState .active noFaults).store 8 = .empty := by decide +kernel

theorem witness_StopCompletionEndsTheMove_restart :
    let s := { stoppingState .active noFaults with
      control := { (stoppingState .active noFaults).control with restartPending := true } }
    hears s ∧ s.control.restartPending = true ∧ s.profile.motion = .stopping ∧ s.profile.plan = some run ∧
      s.profile.time < leg1End run ∧ s.profile.time < moveEnd run ∧
      stepToward (rateStep s) (rateTarget s) s.profile.rate = 0 := by decide +kernel

theorem witness_StopCompletionEndsTheMove_flagSet :
    let s := stoppingState .faultStop (noFaults.set .driveFault ⟨true, false⟩)
    stopFlagSet s = true ∧ s.control.station = .faultStop ∧
      stepToward (rateStep s) (rateTarget s) s.profile.rate = 0 := by decide +kernel

theorem witness_BlankingExpiryChecksTheLatestPairs_within :
    let s := atBlanking 100040
    hears s ∧ s.port.blanking = some 0 ∧ s.port.closed = some ⟨atRest, (everyAxis none).set .pan (some 100040)⟩ ∧
      followingError 100040 (atRest.get .pan) ≤ ((configOf s).axes.get .pan).error := by decide +kernel

theorem witness_BlankingExpiryChecksTheLatestPairs_beyond :
    let s := atBlanking 100041
    hears s ∧ s.port.blanking = some 0 ∧ s.control.driveEnable = true ∧
      ((configOf s).axes.get .pan).error < followingError 100041 (atRest.get .pan) := by decide +kernel

/-- The count 1 with the exchange still open, a move under way. -/
theorem witness_BlankingExpiryChecksTheLatestPairs_before :
    let x : Exchange := ⟨atRest, (everyAxis none).set .pan (some 100041)⟩
    let s := { moving .running 1000 256 false with port := { active.port with blanking := some 1, exchange := some x } }
    hears s ∧ s.port.blanking = some 1 ∧ s.port.exchange = some x ∧ s.control.driveEnable = true ∧
      x.replies.get .pan = some 100041 ∧ s.control.station = .active ∧
      (settingOf s .followingError).severity = .stop ∧ s.profile.motion = .running ∧ rateTarget s ≠ 0 ∧
      (after .blankingWindowExpiry s).port.blanking = some 41 := by decide +kernel

theorem witness_FramesNotTakenOnlyEndSpent :
    hears active ∧ fromOther fromPeer9 active ∧ fromCueStationKind (.hold fromPeer9) = true ∧
      frameHeader (.hold fromPeer9) = some fromPeer9 ∧ sourceOf fromPeer9 ≠ 0 ∧ sourceOf fromPeer9 ≠ 31 ∧
      (∀ r ∈ active.groups.records, r.group ≠ 5) := by decide

/-- A READY from a member of a record that is STARTING, and one from a source outside the member set. -/
theorem witness_FramesNotTakenOnlyEndSpent_ready :
    let s := inGroupWait .starting
    let t := inGroupWait .collecting
    let fromPeer12 : Header := ⟨0x1E, 0x0C⟩
    hears s ∧ fromOther fromPeer9 s ∧ (lastMissing .starting).group = 5 ∧
      (∀ r ∈ s.groups.records, r.group = 5 → r.state ≠ .collecting) ∧
      (∃ m ∈ (lastMissing .starting).slots, m.number = sourceOf fromPeer9) ∧ hears t ∧ fromOther fromPeer12 t ∧
      t.groups.records = [lastMissing .collecting] ∧
      ∀ m ∈ (lastMissing .collecting).slots, m.number ≠ sourceOf fromPeer12 := by decide +kernel

theorem witness_FramesNotTakenOnlyEndSpent_offBus :
    hears joining ∧ fromOther fromCueTo5 joining ∧ onBusRequest (.hold fromCueTo5) = true ∧
      frameHeader (.hold fromCueTo5) = some fromCueTo5 ∧ joining.control.station = .joining ∧
      isPedestal (sourceOf fromCueTo5) = false := by decide

theorem witness_NothingElseHappensBeforeHearing : ¬hears State.reset := by decide

theorem witness_DuplicateStationEventByState :
    hears active ∧ frameHeader (.hold ⟨0x1E, 0x05⟩) = some ⟨0x1E, 0x05⟩ ∧
      sourceOf ⟨0x1E, 0x05⟩ = active.control.number ∧ hears offline ∧ offline.control.station = .offline ∧
      hears joining ∧ joining.control.station = .joining ∧ hears faultStopped ∧
      faultStopped.control.station = .faultStop ∧ headRunning (moving .running 1000 256 false) = true := by decide +kernel

theorem witness_CueRefusedByFirstFailingTest :
    takenFromCue fromCueTo5 claimed ∧ cueStartMode 0x05 = some .onTake ∧ claimed.control.station = .active ∧
      (∃ e ∈ claimed.cues, e.tag = 0x11) ∧ takenFromCue fromCueTo5 faultStopped ∧
      faultStopped.control.station = .faultStop := by decide +kernel

theorem witness_CueRefusedByFirstFailingTest_group :
    takenFromCue fromCueTo5 active ∧ cueStartMode 0x09 = some .group ∧ inPedestalSet 0x0022 active.control.number = false ∧
      inPedestalSet 0x0010 active.control.number = true ∧
      (∃ g ∈ (inGroupWait .collecting).groups.records, g.group = 5) := by decide +kernel

/-- An idle head with two entries behind it. -/
def threeEntries : State :=
  { active with cues := [entry .claiming, waiting 2, waiting 3], claims := claiming.claims }

theorem witness_AcceptedCueJoinsTheList_behind :
    takenFromCue fromCueTo5 threeEntries ∧ cueStartMode 0x09 = some .group ∧
      threeEntries.control.station = .active ∧ (∀ e ∈ threeEntries.cues, e.tag ≠ 0x21) ∧
      2 ≤ threeEntries.cues.length ∧ threeEntries.cues.length < 8 ∧
      inPedestalSet 0x0010 threeEntries.control.number = true ∧ threeEntries.groups.records.length < 4 := by decide +kernel

theorem witness_AcceptedCueJoinsTheList_head :
    takenFromCue fromCueTo5 active ∧ cueStartMode 0x05 = some .onTake ∧ active.cues = [] ∧
      writing active.store 7 = false ∧ recordOf active.store 7 = .empty ∧
      (∀ o ∈ active.claims.own, o.claim.kind ≠ .leg) ∧ writing writingShot.store 7 = true ∧
      takenFromCue fromCueTo5 writingShot ∧ writingShot.cues = [] := by decide +kernel

theorem witness_AcceptedCueJoinsTheList_headGroup :
    cueStartMode 0x09 = some .group ∧ inPedestalSet 0x0010 active.control.number = true ∧
      active.groups.records.length < 4 ∧ (∀ g ∈ active.groups.records, g.group ≠ 5) := by decide

/-- Record 7 holds a shot, and AXIS_LIMIT has a severity. -/
def holding (c : ShotContent) (severity : Severity) (s : State) : State :=
  { s with
    control := { s.control with
      config := some { testConfig with classes := testConfig.classes.set .axisLimit ⟨severity, false⟩ } }
    store := { s.store with areas := [(7, storedForm (.valid c))] } }

/-- A target beyond the X limit. -/
def limitedShot : ShotContent := { floorShot with targets := { floorShot.targets with x := some 8100 } }

theorem witness_HeadCueIsPlannedAndAnnounced :
    let s := holding floorShot .report active
    let plan := buildPlan (configOf s) s.port.lastSetpoint floorShot
    takenFromCue fromCueTo5 s ∧ cueStartMode 0x05 = some .onTake ∧ s.control.station = .active ∧ s.cues = [] ∧
      writing s.store 7 = false ∧ recordOf s.store 7 = .valid floorShot ∧
      limitAxes s s.port.lastSetpoint floorShot = [] ∧ plan.duration ≤ 65535 ∧
      plan.candidates.length = 1 ∧ plan.candidates.all (routeFree plan (obstacles s)) = true := by decide +kernel

/-- Behind a running head the start is its targets; a peer's rectangle then blocks the only candidate. -/
theorem witness_HeadCueIsPlannedAndAnnounced_second :
    let s := holding backShot .report (moving .running 1000 256 false)
    let t := { s with peers := [⟨9, .live, [⟨⟨3, 14, 17, 20⟩, .parked, .held⟩]⟩] }
    let plan := buildPlan (configOf s) floorPlan.target backShot
    takenFromCue fromCueTo5 s ∧ s.cues = [{ entry .running with take := true }] ∧
      (entry .running).plan = some floorPlan ∧ s.profile.motion ≠ .stopping ∧ (0x12 : Byte) ≠ (entry .running).tag ∧
      recordOf s.store 7 = .valid backShot ∧ limitAxes s floorPlan.target backShot = [] ∧ plan.duration ≤ 65535 ∧
      (∀ r ∈ plan.candidates, routeFree plan (obstacles s) r = true) ∧
      recordOf t.store 7 = .valid backShot ∧ (∀ r ∈ plan.candidates, routeFree plan (obstacles t) r = false) := by decide +kernel

theorem witness_HeadCueIsPlannedAndAnnounced_limited :
    let s := holding limitedShot .report active
    let t := holding limitedShot .stop active
    recordOf s.store 7 = .valid limitedShot ∧ limitAxes s s.port.lastSetpoint limitedShot = [.x] ∧
      (settingOf s .axisLimit).severity = .report ∧ (settingOf t .axisLimit).severity = .stop ∧
      limitAxes t t.port.lastSetpoint limitedShot ≠ [] ∧ t.cues = [] ∧ takenFromCue fromCueTo5 t ∧
      (∀ o ∈ t.claims.own, o.claim.kind ≠ .leg) ∧ t.bus.reportFifo.length < 7 := by decide +kernel

theorem witness_HeadCueIsPlannedAndAnnounced_range :
    let far := { floorShot with targets := { floorShot.targets with pan := some 800000 } }
    let slow := { testConfig with axes := { testConfig.axes with pan := { headLimits with speed := 1 } } }
    let s := { holding far .report active with control := { active.control with config := some slow } }
    takenFromCue fromCueTo5 s ∧ s.cues = [] ∧ recordOf s.store 7 = .valid far ∧
      limitAxes s s.port.lastSetpoint far = [] ∧ 65535 < (buildPlan (configOf s) s.port.lastSetpoint far).duration ∧
      ∀ o ∈ s.claims.own, o.claim.kind ≠ .leg := by decide +kernel

/-- An IMMEDIATE CUE of the floor move, deferred on air and not off air, and a GROUP CUE of it. -/
theorem witness_HeadCueIsPlannedAndAnnounced_modes :
    let s := holding floorShot .report active
    let t := { s with tally := ⟨true, .current, true⟩ }
    let plan := buildPlan (configOf s) s.port.lastSetpoint floorShot
    takenFromCue fromCueTo5 s ∧ cueStartMode 0x01 = some .immediate ∧ cueStartMode 0x09 = some .group ∧
      inPedestalSet 0x0010 s.control.number = true ∧ (∀ g ∈ s.groups.records, g.group ≠ 5) ∧
      s.groups.records.length < 4 ∧ s.cues = [] ∧ writing s.store 7 = false ∧ recordOf s.store 7 = .valid floorShot ∧
      floorShot.livePermitted = false ∧ s.tally.onAir = false ∧ t.tally.onAir = true ∧ takenFromCue fromCueTo5 t ∧
      recordOf t.store 7 = .valid floorShot ∧ limitAxes t t.port.lastSetpoint floorShot = [] ∧
      plan.duration ≤ 65535 ∧ plan.candidates.all (routeFree plan (obstacles t)) = true := by decide +kernel

/-- IMMEDIATE CUEs of moves without legs, which start at once: one of pan alone, and one of N 0. -/
theorem witness_HeadCueIsPlannedAndAnnounced_starts :
    let panShot := { backShot with targets := { backShot.targets with pan := some 109000 } }
    let s := holding panShot .report active
    let t := holding backShot .report active
    let moves := buildPlan (configOf s) s.port.lastSetpoint panShot
    let still := buildPlan (configOf t) t.port.lastSetpoint backShot
    takenFromCue fromCueTo5 s ∧ recordOf s.store 7 = .valid panShot ∧ s.cues = [] ∧ s.profile.motion = .idle ∧
      s.control.restartPending = false ∧ s.tally.onAir = false ∧ limitAxes s s.port.lastSetpoint panShot = [] ∧
      moves.candidates.map Route.legs = [[]] ∧ 1 ≤ moves.duration ∧ moves.duration ≤ 65535 ∧
      takenFromCue fromCueTo5 t ∧ recordOf t.store 7 = .valid backShot ∧ still.candidates.map Route.legs = [[]] ∧
      limitAxes t t.port.lastSetpoint backShot = [] ∧ still.duration = 0 ∧ t.peers = [] := by decide +kernel

theorem witness_TakeSetsTheFlagBehindTheHead :
    takenFromCue fromCueTo5 threeEntries ∧ onBus threeEntries = true ∧ (∀ x ∈ threeEntries.cues, x.tag ≠ 0x44) ∧
      (∀ x ∈ threeEntries.cues, x.group ≠ some 5) ∧
      threeEntries.cues = [entry .claiming, waiting 2] ++ waiting 3 :: [] ∧ (waiting 3).tag = 3 ∧
      ∀ x ∈ [entry .claiming, waiting 2], x.tag ≠ 3 := by decide +kernel

theorem witness_TakeSetsTheFlagBehindTheHead_group :
    let s := { active with cues := [entry .claiming, groupEntry .queued] }
    takenFromCue fromCueTo5 s ∧ onBus s = true ∧ (groupEntry .queued).group = some 5 ∧
      (∀ x ∈ [entry .claiming], x.group ≠ some 5) := by decide +kernel

theorem witness_TakeStartsOrDefersTheHead_starts :
    takenFromCue fromCueTo5 claimed ∧ claimed.cues = [entry .claimed] ∧ (entry .claimed).copy = some floorShot ∧
      (entry .claimed).plan = some floorPlan ∧ claimed.control.station = .active ∧ (entry .claimed).mode ≠ .group ∧
      claimed.tally.onAir = false ∧ claimed.profile.motion = .idle ∧ claimed.control.restartPending = false ∧
      claimed.peers = [] ∧ (chosenRoute floorPlan).legs ≠ [] ∧ 1 ≤ floorPlan.common.getD floorPlan.duration := by
  decide +kernel

/-- A plan without legs and with N of 0: every target is where the axis stands. -/
def stillPlan : Plan := { buildPlan testConfig atRest backShot with chosen := some 0 }

theorem witness_TakeStartsOrDefersTheHead_still :
    let e := { entry .claimed with copy := some backShot, plan := some stillPlan }
    let s := { active with cues := [e] }
    takenFromCue fromCueTo5 s ∧ s.cues = [e] ∧ e.stage = .claimed ∧ e.mode ≠ .group ∧ s.tally.onAir = false ∧
      s.profile.motion = .idle ∧ s.peers = [] ∧ (chosenRoute stillPlan).legs = [] ∧
      stillPlan.common.getD stillPlan.duration = 0 ∧ (resplit stillPlan 4).common.getD stillPlan.duration = 4 := by
  decide +kernel

/-- A QUEUED second entry behind the head that starts, its record VALID and within the limits from the head's targets; behind
a head of N 0, read from the last setpoints. -/
theorem witness_TakeStartsOrDefersTheHead_second :
    let f : CueEntry := { waiting 2 with shot := 7 }
    let s := { holding backShot .report claimed with cues := [entry .claimed, f] }
    let still := { entry .claimed with copy := some backShot, plan := some stillPlan }
    let t := { s with cues := [still, f], claims := active.claims }
    takenFromCue fromCueTo5 s ∧ s.control.station = .active ∧ s.tally.onAir = false ∧ s.profile.motion = .idle ∧
      s.control.restartPending = false ∧ s.peers = [] ∧ s.cues = entry .claimed :: f :: [] ∧ f.stage = .queued ∧
      1 ≤ floorPlan.common.getD floorPlan.duration ∧ recordOf s.store f.shot = .valid backShot ∧
      writing s.store f.shot = false ∧ limitAxes s floorPlan.target backShot = [] ∧ t.cues = still :: f :: [] ∧
      stillPlan.common.getD stillPlan.duration = 0 ∧ still.group = none ∧
      limitAxes t t.port.lastSetpoint backShot = [] := by decide +kernel

theorem witness_TakeStartsOrDefersTheHead_defers :
    let s := { claimed with tally := ⟨true, .current, true⟩ }
    takenFromCue fromCueTo5 s ∧ onBus s = true ∧ s.cues = [entry .claimed] ∧ floorShot.livePermitted = false ∧
      s.tally.onAir = true := by decide +kernel

theorem witness_GroupTakeEntersGroupWait :
    let s := { claimed with cues := [groupEntry .claimed], groups := ⟨[record .collecting], false, none⟩ }
    takenFromCue fromCueTo5 s ∧ onBus s = true ∧ (groupEntry .claimed).group = some 5 ∧
      (groupEntry .claimed).mode = .group ∧ (groupEntry .claimed).copy = some floorShot ∧
      (groupEntry .claimed).plan = some floorPlan ∧ s.tally.onAir = false ∧ s.bus.readyFifo.length < 4 := by decide +kernel

/-- A READY FIFO of four: a readiness in transmission, two more frames, and a withdrawal. -/
def sentReady (orphan : Bool) : QueuedReady := ⟨5, 0x11, 4000, 20, false, orphan⟩

def fullFifo : List QueuedReady :=
  [sentReady false] ++ [⟨6, 0x12, 1, 20, false, false⟩, ⟨7, 0x13, 1, 20, false, false⟩] ++ ⟨8, 0x14, 0, 0, true, false⟩ :: []

def sending (fifo : List QueuedReady) (s : State) : State :=
  { s with
    bus := { s.bus with
      readyFifo := fifo, transmission := some ⟨.ready (sentReady false), [], false, false, false⟩ } }

theorem witness_GroupTakeEntersGroupWait_full :
    let s := sending fullFifo
      { claimed with cues := [groupEntry .claimed], groups := ⟨[record .collecting], false, none⟩ }
    takenFromCue fromCueTo5 s ∧ s.bus.readyFifo.length = 4 ∧ [sentReady false].length = readySent s ∧
      (⟨8, 0x14, 0, 0, true, false⟩ : QueuedReady).withdrawn = true := by decide +kernel

theorem witness_CancelRemovesTheEntryOrBeginsAStop :
    takenFromCue fromCueTo5 threeEntries ∧ onBus threeEntries = true ∧
      threeEntries.cues = [entry .claiming, waiting 2] ++ waiting 3 :: [] ∧ (waiting 3).stage = .queued ∧
      takenFromCue fromCueTo5 claimed ∧ claimed.cues = [entry .claimed] ∧ (entry .claimed).group = none ∧
      claimed.peers = [] := by decide +kernel

/-- The only entry in GROUP_WAIT, its record COLLECTING with its readiness queued or in transmission, and STARTING. -/
theorem witness_CancelRemovesTheEntryOrBeginsAStop_groupWait :
    let s := inGroupWait .collecting
    let t := inGroupWait .starting
    let q := { s with bus := { s.bus with readyFifo := [] ++ ([] ++ sentReady false :: []) } }
    let u := sending fullFifo s
    takenFromCue fromCueTo5 s ∧ onBus s = true ∧ s.cues = [groupEntry .groupWait] ∧ s.peers = [] ∧
      (groupEntry .groupWait).group = some (lastMissing .collecting).group ∧
      groupRecord (lastMissing .collecting).group s = some (lastMissing .collecting) ∧ takenFromCue fromCueTo5 t ∧
      groupRecord (lastMissing .starting).group t = some (lastMissing .starting) ∧ readySent q = 0 ∧
      (sentReady false).group = (lastMissing .collecting).group ∧ u.bus.readyFifo = [sentReady false] ++ fullFifo.drop 1 ∧
      readySent u = 1 ∧ (∀ x ∈ fullFifo.drop 1, x.group ≠ (lastMissing .collecting).group) := by decide +kernel

/-- A head that is not running with a QUEUED entry behind it, and a pre-planned second entry with one behind. -/
theorem witness_CancelRemovesTheEntryOrBeginsAStop_filled :
    let f : CueEntry := { waiting 3 with shot := 7 }
    let s := { holding floorShot .report claimed with cues := [entry .claimed, f] }
    let t := { holding backShot .report (moving .running 1000 256 false) with
      cues := [entry .running, second .claimed, f] }
    takenFromCue fromCueTo5 s ∧ s.cues = entry .claimed :: f :: [] ∧ s.peers = [] ∧ s.control.station = .active ∧
      f.stage = .queued ∧ writing s.store f.shot = false ∧ recordOf s.store f.shot = .valid floorShot ∧
      limitAxes s s.port.lastSetpoint floorShot = [] ∧ takenFromCue fromCueTo5 t ∧
      t.cues = entry .running :: second .claimed :: f :: [] ∧ (entry .running).tag ≠ (second .claimed).tag ∧
      (second .claimed).stage ≠ .running ∧ t.peers = [] ∧ (entry .running).plan = some floorPlan ∧
      t.profile.motion ≠ .stopping ∧ t.control.station = .active ∧ recordOf t.store f.shot = .valid backShot ∧
      limitAxes t floorPlan.target backShot = [] := by decide +kernel

theorem witness_CancelRemovesTheEntryOrBeginsAStop_running :
    let s := moving .running 1000 256 false
    takenFromCue fromCueTo5 s ∧ onBus s = true ∧ s.cues = [{ entry .running with take := true }] ∧
      s.profile.motion = .running ∧ (moving .stopping 1000 256 false).profile.motion = .stopping := by decide +kernel

theorem witness_CancelAllEmptiesTheList :
    takenFromCue fromCueTo5 threeEntries ∧ onBus threeEntries = true ∧ threeEntries.peers = [] ∧
      threeEntries.cues = entry .claiming :: [waiting 2, waiting 3] ∧
      threeEntries.bus.reportFifo.length + threeEntries.cues.length ≤ 8 := by decide +kernel

theorem witness_CancelAllEmptiesTheList_groupWait :
    let s := { inGroupWait .collecting with cues := [groupEntry .groupWait, waiting 2] }
    takenFromCue fromCueTo5 s ∧ onBus s = true ∧ s.peers = [] ∧ s.cues = groupEntry .groupWait :: [waiting 2] ∧
      (waiting 2).stage ≠ .groupWait ∧ (groupEntry .groupWait).group = some (lastMissing .collecting).group ∧
      groupRecord (lastMissing .collecting).group s = some (lastMissing .collecting) := by decide +kernel

theorem witness_CancelAllEmptiesTheList_running :
    let s := { moving .running 1000 256 false with cues := [entry .running, waiting 2] }
    takenFromCue fromCueTo5 s ∧ s.cues = entry .running :: [waiting 2] ∧ s.profile.motion = .running := by decide +kernel

theorem witness_HoldAndResumeSetTheFlag :
    takenFromCue fromCueTo5 active ∧ onBus active = true ∧ active.profile.hold = false ∧
      { active.profile with hold := true }.hold = true := by decide

theorem witness_StoreRequestsStartTheWrite :
    takenFromCue fromCueTo5 active ∧ onBus active = true ∧ active.store.write = none ∧
      labelPrintable deskTwo.label = true ∧ bodySound deskTwo = true ∧
      recordOf active.store 5 ≠ .valid (bodyContent deskTwo) ∧ active.profile.motion = .idle ∧
      5 ∈ { active.store with corrupt := [5] }.corrupt := by decide +kernel

theorem witness_StoreRequestsReportTheOutcome :
    takenFromCue fromCueTo5 active ∧ onBus active = true ∧ 127 < (128 : Byte).toNat ∧
      labelPrintable [0x07] = false ∧ bodySound { deskTwo with options := 0x03 } = false ∧
      writingShot.store.write ≠ none ∧ takenFromCue fromCueTo5 writingShot ∧
      (moving .running 1000 256 false).profile.motion ≠ .idle ∧ recordOf active.store 30 = .empty := by decide +kernel

theorem witness_ReadShotReplacesTheCursor : takenFromCue fromCueTo5 active ∧ onBus active = true := by decide

theorem witness_WriteCompletionEndsTheWrite :
    hears writingShot ∧ writingShot.store.write = some ⟨7, .valid floorShot⟩ ∧
      (∀ e ∈ writingShot.cues, e.stage = .queued → e.shot ≠ 7) ∧ active.store.write = none := by decide +kernel

/-- The head waits for record 7, whose write leaves it VALID, or fails. -/
theorem witness_WriteCompletionEndsTheWrite_afresh :
    let e := { entry .queued with copy := none, plan := none }
    let s := { writingShot with cues := [e] }
    let plan := buildPlan (configOf s) s.port.lastSetpoint floorShot
    hears s ∧ s.store.write = some ⟨7, .valid floorShot⟩ ∧ e.shot = 7 ∧ e.take = false ∧ s.control.station = .active ∧
      areaRecord (storedForm (.valid floorShot)) = .valid floorShot ∧
      limitAxes s s.port.lastSetpoint floorShot = [] ∧ plan.duration ≤ 65535 ∧ plan.candidates.length = 1 ∧
      plan.candidates.all (routeFree plan (obstacles s)) = true ∧ faultStopped.control.station ≠ .active := by
  decide +kernel

theorem witness_RaiseIsReportedOnce :
    ((active.faults.get .floorOverlap).sticky = false ∧ (settingOf active .floorOverlap).masked = false) ∧
      active.bus.reportFifo.length < 8 ∧ (faultStopped.faults.get .driveFault).sticky = true ∧
      8 ≤ (List.replicate 8 (Report.store 1 .written)).length := by decide

theorem witness_ClearFaultsAndReturnToActive :
    takenFromCue fromCueTo5 faultStopped ∧ faultStopped.control.station = .faultStop ∧
      faultStopped.profile.motion = .idle ∧
      (∀ c ∈ FaultClass.all, (settingOf faultStopped c).severity = .stop →
        ((clearClasses faultStopped.faults (inClassSet 2)).get c).sticky = false) ∧
      takenFromCue fromCueTo5 active ∧ active.control.station ≠ .faultStop := by decide +kernel

theorem witness_PeerForgottenOrLost :
    let s := { active with peers := [⟨9, .live, [parked.claim]⟩, ⟨12, .lost, []⟩] }
    hears s ∧ (∀ e ∈ s.cues, e.stage ≠ .routing) ∧ takenFromCue fromCueTo5 s ∧ (∃ p ∈ s.peers, p.number = (9 : Byte).toNat) ∧
      (∀ p ∈ s.peers, p.number ≠ (3 : Byte).toNat) ∧ peerOf 9 s = some ⟨9, .live, [parked.claim]⟩ ∧
      peerOf 12 s = some ⟨12, .lost, []⟩ ∧ (settingOf s .peerLost).severity = .report := by decide +kernel

/-- An only entry in ROUTING behind a blocking peer, which FORGET_PEER makes free and an age timer's expiry leaves. -/
theorem witness_PeerForgottenOrLost_routing :
    let p := { floorPlan with chosen := none }
    let s := { active with
      cues := [{ entry .routing with plan := some p }], peers := [⟨9, .live, [peerRect .held]⟩] }
    hears s ∧ takenFromCue fromCueTo5 s ∧ p.candidates.all (fun r => !routeFree p (obstacles s) r) = true ∧
      p.candidates.all (routeFree p []) = true ∧ p.candidates.length = 1 ∧ peerOf 9 s = some ⟨9, .live, [peerRect .held]⟩ ∧
      (settingOf s .peerLost).severity = .report := by decide +kernel

/-- A taken head whose view turns: off air it starts, on air it is deferred; a group head enters GROUP_WAIT. -/
theorem witness_TallySetsTheOnAirView_head :
    let e := { entry .claimed with take := true }
    let s := { claimed with cues := [e], tally := ⟨true, .current, true⟩ }
    hears s ∧ (0 : BitVec 16).getLsbD (s.control.number - 1) ≠ s.tally.onAir ∧ e.copy = some floorShot ∧
      e.plan = some floorPlan ∧ floorShot.livePermitted = false ∧ e.mode ≠ .group ∧ s.control.station = .active ∧
      s.profile.motion = .idle ∧ s.control.restartPending = false ∧ s.peers = [] ∧ (chosenRoute floorPlan).legs ≠ [] ∧
      1 ≤ floorPlan.common.getD floorPlan.duration ∧ (groupEntry .claimed).mode = .group ∧
      s.bus.readyFifo.length < 4 ∧ (entry .routing).stage ≠ .claimed := by decide +kernel

theorem witness_TallySetsTheOnAirView :
    hears active ∧ fromOther fromTally active ∧ sourceOf fromTally = 31 ∧ isPedestal active.control.number = true ∧
      (0x0010 : BitVec 16).getLsbD (active.control.number - 1) ≠ active.tally.onAir ∧
      (0x0000 : BitVec 16).getLsbD (active.control.number - 1) = active.tally.onAir ∧ active.cues = [] ∧
      active.tally.timer = true ∧ (settingOf active .tallyLost).severity = .report ∧ offline.tally.timer = true ∧
      State.reset.tally.timer = false := by decide +kernel

theorem witness_TallySetsTheOnAirView_running :
    let s := moving .running 1000 256 false
    hears s ∧ headRunning s = true ∧ s.profile.motion = .running ∧ s.profile.hold = false ∧ s.profile.plan = some run ∧
      run.livePermitted = false := by decide +kernel

theorem witness_StateFrameReplacesThePeerEntry :
    hears active ∧ fromOther fromPeer9 active ∧ isPedestal (sourceOf fromPeer9) = true ∧
      isPedestal active.control.number = true ∧ (∀ e ∈ active.cues, e.stage ≠ .routing ∧ e.stage ≠ .claiming) ∧
      (settingOf active .floorOverlap).severity = .report := by decide

theorem witness_StateFrameReplacesThePeerEntry_routing :
    let p := { floorPlan with chosen := none }
    let s := { active with cues := [{ entry .routing with plan := some p }] }
    hears s ∧ (∀ e ∈ s.cues, e.stage ≠ .claiming) ∧ p.candidates.all (fun r => !routeFree p [(peerRect .held).rect] r) = true ∧
      p.candidates.all (routeFree p []) = true := by decide +kernel

/-- A rectangle that meets the CLAIMING entry's first leg, PENDING with a lesser rank: the entry keeps its legs (R79). -/
theorem witness_StateFrameReplacesThePeerEntry_claiming :
    let c := { peerRect (.pending ⟨0, 0⟩) with kind := .leg }
    let p := oneClaim ⟨10, 6, 11, 7, 5, 0⟩
    hears claiming ∧ fromOther fromPeer9 claiming ∧ payloadClaims p = [c] ∧ claiming.cues = [entry .claiming] ∧
      (entry .claiming).plan = some floorPlan ∧ (∃ l ∈ (chosenRoute floorPlan).legs,
        meetsOutside l.rect c.rect (some floorPlan.startFootprint) = true) ∧
      c.state = .pending ⟨0, 0⟩ ∧ 0 < (entry .claiming).priority ∧
      (after (.stateFrame fromPeer9 p) claiming).claims = claiming.claims := by decide +kernel

theorem witness_ExactlyOneOfTwoPendingClaimsLoses :
    (3 : Nat) ≠ 5 ∧ (peerRect (.pending ⟨1, 0⟩)).state = .pending ⟨1, 0⟩ ∧
      beats ⟨1, 0⟩ 5 (peerRect (.pending ⟨1, 0⟩)) 3 = true ∧ beats ⟨1, 0⟩ 3 (peerRect (.pending ⟨1, 0⟩)) 5 = false := by
  decide

theorem witness_ClaimingEntryYieldsToGreaterRank :
    hears claiming ∧ fromOther fromPeer9 claiming ∧ isPedestal (sourceOf fromPeer9) = true ∧
      isPedestal claiming.control.number = true ∧ (settingOf claiming .floorOverlap).severity = .report ∧
      claiming.cues = [entry .claiming] ∧ (entry .claiming).plan = some floorPlan ∧ floorPlan.candidates.length = 1 ∧
      floorPlan.chosen = some 0 ∧ (∀ r ∈ floorPlan.candidates, firstLeg ∈ r.legs) ∧ peerRect .held ∈ payloadClaims spl ∧
      meetsOutside firstLeg.rect (peerRect .held).rect (some floorPlan.startFootprint) = true ∧
      beats ⟨1, 0⟩ claiming.control.number (peerRect (.pending ⟨2, 0⟩)) (sourceOf fromPeer9) = true := by decide +kernel

theorem witness_OnlineEntersJoining :
    takenFromCue fromCueTo5 offline ∧ offline.control.station = .offline ∧ offline.control.config ≠ none ∧
      offline.control.readEnded = true ∧ offline.control.identityConflict = false ∧ takenFromCue fromCueTo5 active ∧
      active.control.station ≠ .offline := by decide

theorem witness_RestartTakesEffectOrBeginsAStop :
    takenFromCue fromCueTo5 offline ∧ offline.control.station = .offline ∧ takenFromCue fromCueTo5 claimed ∧
      claimed.control.station ≠ .offline ∧ claimed.profile.motion = .idle ∧
      takenFromCue fromCueTo5 (moving .stopping 1000 20 false) ∧ takenFromCue fromCueTo5 (moving .held 1000 0 false) ∧
      (moving .held 1000 0 false).cues = [{ entry .running with take := true }] := by decide +kernel

theorem witness_JoinTimerEntersActive :
    hears joining ∧ joining.control.joinTimer = true ∧ joining.control.station = .joining ∧ joining.peers = [] ∧
      joining.cues = [] ∧ joining.profile.motion = .idle ∧ active.control.joinTimer = false ∧
      (settingOf joining .driveFault).severity = .stop ∧
      ((noFaults.set .driveFault ⟨true, false⟩).get .driveFault).sticky = true := by decide

theorem witness_ReadyIsRecordedAndStartsTheGroup :
    let s := inGroupWait .collecting
    let p : ReadyPayload := ⟨5, 0x22, 4000, 20, 0⟩
    hears s ∧ fromOther fromPeer9 s ∧ s.groups.records = [lastMissing .collecting] ∧
      (lastMissing .collecting).group = p.group ∧ p.flags.getLsbD 0 = false ∧
      (∃ m ∈ (lastMissing .collecting).slots, m.number = sourceOf fromPeer9) ∧ s.cues = [groupEntry .groupWait] ∧
      (groupEntry .groupWait).group = some (lastMissing .collecting).group ∧
      (∃ m ∈ (record .collecting).slots, m.number ≠ sourceOf fromPeer9 ∧ m.ready = none) := by decide +kernel

theorem witness_GroupEndsWithoutAStart :
    let s := inGroupWait .collecting
    hears s ∧ s.cues = [groupEntry .groupWait] ∧ (groupEntry .groupWait).group = some (lastMissing .collecting).group ∧
      s.groups.records = [lastMissing .collecting] ∧ s.peers = [] ∧ s.bus.transmission = none ∧
      readySent s = 0 ∧ fromOther fromPeer9 s ∧ (1 : Byte).getLsbD 0 = true ∧
      (∃ m ∈ (lastMissing .collecting).slots, m.number = sourceOf fromPeer9) ∧ s.groups.waitTimer = true ∧
      s.bus.readyFifo = [] := by decide +kernel

theorem witness_GroupEndsWithoutAStart_sent :
    let s := sending fullFifo (inGroupWait .collecting)
    let t := sending ([sentReady false] ++ []) (inGroupWait .collecting)
    hears s ∧ s.bus.readyFifo = fullFifo ∧ [sentReady false].length = readySent s ∧ [sentReady false].length = readySent t ∧
      (sentReady false).group = (lastMissing .collecting).group ∧ s.bus.readyFifo.length = 4 ∧
      t.bus.readyFifo.length < 4 ∧ ∀ q ∈ fullFifo.drop 1, q.group ≠ (lastMissing .collecting).group := by decide +kernel

theorem witness_GroupEndsWithoutAStart_deeper :
    let q := sentReady false
    let s := { inGroupWait .collecting with
      bus := { active.bus with readyFifo := [] ++ ([⟨8, 0x14, 0, 0, true, false⟩] ++ q :: []) } }
    hears s ∧ readySent s = 0 ∧ q.group = (lastMissing .collecting).group ∧ q.withdrawn = false ∧
      s.groups.waitTimer = true := by decide +kernel

theorem witness_StartDelayExpiryStartsTheMove_still :
    let e := { groupEntry .groupWait with copy := some backShot, plan := some (resplit stillPlan 0) }
    let s := { inGroupWait .starting with cues := [e], groups := ⟨[lastMissing .starting], false, some 20⟩ }
    hears s ∧ s.control.station = .active ∧ e.plan = some (resplit stillPlan 0) ∧
      (resplit stillPlan 0).common.getD stillPlan.duration = 0 ∧ (chosenRoute (resplit stillPlan 0)).legs = [] := by
  decide +kernel

theorem witness_StartDelayExpiryStartsTheMove :
    let s := { inGroupWait .starting with groups := ⟨[lastMissing .starting], false, some 20⟩ }
    hears s ∧ s.groups.startDelay = some 20 ∧ s.control.station = .active ∧ s.cues = [groupEntry .groupWait] ∧
      (groupEntry .groupWait).group = some (lastMissing .starting).group ∧ (lastMissing .starting).state = .starting ∧
      (groupEntry .groupWait).copy = some floorShot ∧ (groupEntry .groupWait).plan = some floorPlan ∧
      s.profile.motion = .idle ∧ s.peers = [] ∧ (chosenRoute floorPlan).legs ≠ [] ∧
      1 ≤ floorPlan.common.getD floorPlan.duration ∧ active.groups.startDelay = none := by decide +kernel

theorem witness_TransmissionStartSendsTheHighestClass :
    hears active ∧ onBus active = true ∧ active.bus.spent = false ∧ active.bus.transmission = none ∧
      active.bus.readyFifo = [] ∧ active.bus.stateMarker = false ∧ active.bus.reportFifo = [] ∧
      active.bus.cursor.remaining = 0 ∧ onBus joining = false := by decide

theorem witness_TransmissionCompletionByFrame :
    let q := record .collecting
    let r : QueuedReady := ⟨5, 0x11, 4000, 20, false, false⟩
    let s := { active with
      groups := ⟨[q], true, none⟩
      bus := { active.bus with
        readyFifo := [r], transmission := some ⟨.ready r, [], false, false, false⟩ } }
    hears s ∧ s.bus.transmission = some ⟨.ready r, [], false, false, false⟩ ∧ s.bus.readyFifo = r :: [] ∧
      s.groups.records = [q] ∧ q.group = r.group ∧ q.state = .collecting ∧
      (∃ m ∈ q.slots, m.number ≠ s.control.number ∧ m.ready = none) := by decide +kernel

/-- The own readiness is the last one of its record; a marked one waits to be dropped. -/
theorem witness_TransmissionCompletionByFrame_last :
    let q : GroupRecord := ⟨5, [⟨5, none⟩, ⟨9, some (5000, 15)⟩], .collecting, none, none⟩
    let s := sending [sentReady false] { inGroupWait .collecting with groups := ⟨[q], true, none⟩ }
    let slots := q.slots.map fun m => if m.number = s.control.number then { m with ready := some (4000, 20) } else m
    hears s ∧ s.bus.readyFifo = sentReady false :: [] ∧ s.groups.records = [q] ∧ q.group = (sentReady false).group ∧
      (∀ m ∈ slots, m.ready ≠ none) ∧ s.cues = [groupEntry .groupWait] ∧ (groupEntry .groupWait).group = some q.group ∧
      (sending [sentReady true] s).bus.readyFifo = sentReady true :: [] ∧ (sentReady true).orphan = true := by
  decide +kernel

theorem witness_AbandonKeepsTheFrame :
    let x : Transmission := ⟨.report (.store 1 .written), [], false, false, false⟩
    let s := { active with bus := { active.bus with transmission := some x, reportFifo := [.store 1 .written] } }
    hears s ∧ s.bus.transmission = some x ∧ s.bus.abandonCount < 15 ∧ (settingOf s .busContention).severity = .report ∧
      s.bus.heartbeat = true ∧ offline.bus.heartbeat = false ∧ active.bus.transmission = none := by decide

theorem witness_ClaimTimersSettleOrFail :
    hears claiming ∧ claiming.claims.settleTimer = true ∧ claiming.claims.claimWaitTimer = true ∧
      claiming.cues = [entry .claiming] ∧ (entry .claiming).take = false ∧ (entry .claiming).group = none ∧
      claiming.peers = [] ∧ onBus claiming = true ∧ active.claims.settleTimer = false ∧
      (∃ o ∈ claiming.claims.own, o.claim.kind = .leg ∧ o.claim.state ≠ .held) := by decide +kernel

/-- A taken CLAIMING head, off air and on air, alone and with a QUEUED entry behind it, and one of a group. -/
theorem witness_ClaimTimersSettleOrFail_taken :
    let f : CueEntry := { waiting 2 with shot := 7 }
    let e := { entry .claiming with take := true }
    let s := { holding backShot .report claiming with cues := [e, f] }
    let t := { s with tally := ⟨true, .current, true⟩ }
    hears s ∧ s.claims.settleTimer = true ∧ s.cues = e :: [f] ∧ s.peers = [] ∧ e.copy = some floorShot ∧
      e.plan = some floorPlan ∧ floorShot.livePermitted = false ∧ s.tally.onAir = false ∧ t.tally.onAir = true ∧
      e.mode ≠ .group ∧ s.control.station = .active ∧ s.profile.motion = .idle ∧ s.control.restartPending = false ∧
      (chosenRoute floorPlan).legs ≠ [] ∧ 1 ≤ floorPlan.common.getD floorPlan.duration ∧ f.stage = .queued ∧
      recordOf s.store f.shot = .valid backShot ∧ limitAxes s floorPlan.target backShot = [] ∧
      (groupEntry .claiming).mode = .group ∧ (groupEntry .claiming).group = some 5 ∧ s.bus.readyFifo.length < 4 := by
  decide +kernel

/-- A CLAIMING second entry behind the running head. -/
theorem witness_ClaimTimersSettleOrFail_second :
    let m := moving .running 1000 256 false
    let o : OwnClaim := ⟨⟨⟨3, 14, 17, 20⟩, .nextLeg, .pending ⟨1, 0⟩⟩, 1⟩
    let s := { m with
      cues := [entry .running, second .claiming]
      claims := { m.claims with own := legClaims .held ++ [o], settleTimer := true } }
    hears s ∧ s.claims.settleTimer = true ∧ s.cues = entry .running :: second .claiming :: [] ∧ s.peers = [] ∧
      (entry .running).stage ≠ .claiming ∧ (second .claiming).stage = .claiming ∧ onBus s = true ∧
      (∃ o ∈ s.claims.own, o.claim.kind = .nextLeg ∧ o.claim.state ≠ .held) := by decide +kernel

/-- A station at rest whose configuration is an image's, with a peer beside it, meets the floor agreement. -/
def agreed : State :=
  { active with
    control := { active.control with config := checkConfiguration 5 validImage }
    peers := [⟨9, .live, [⟨⟨10, 11, 6, 7⟩, .parked, .held⟩]⟩] }

theorem witness_StepKeepsMemoryAndCapacities_floor :
    peersRight agreed ∧ stationTimersRight agreed ∧ floorAgreement agreed := by
  have config : agreed.control.config = checkConfiguration 5 validImage := by simp only [agreed]
  have peers : peersRight agreed := by
    refine ⟨by decide, by decide, fun p h => ?_, fun h => absurd h (by decide), fun h => ?_⟩
    · cases List.mem_singleton.mp h; decide
    · rcases h with h | h <;> cases h
  refine ⟨peers, by unfold stationTimersRight; decide, fun cfg h => ⟨5, validImage, config.symm.trans h⟩, fun _ => ⟨by decide +kernel, rfl, by decide +kernel⟩, peers, ?_, ?_, ?_,
    ⟨rfl, rfl⟩, by decide +kernel, by decide +kernel, ⟨by decide +kernel, ?_⟩, fun _ x y h => ?_⟩
  · exact ⟨fun h => absurd h (by decide), fun k e h => (by cases h), by decide⟩
  · intro k e h; cases h
  · refine ⟨by decide, by decide, fun e h => (by cases h), fun r h => (by cases h), fun h => (by cases h), by decide,
      fun q h => (by cases h), fun x r h => (by cases h), fun q h => by cases h⟩
  · intro n
    refine ⟨fun h => (by cases h), fun ⟨p, h, _, o⟩ => ?_⟩
    cases List.mem_singleton.mp h
    exact absurd o (by decide +kernel)
  · refine ⟨parked, List.mem_singleton.mpr rfl, rfl, ?_⟩
    have f : footprint (configOf agreed).halfWidth (floorPoint agreed.port.lastSetpoint) = ⟨3, 6, 6, 9⟩ := by
      decide +kernel
    rw [f] at h; exact h

/-- A running state that meets the invariants. -/
theorem witness_StepKeepsMemoryAndCapacities :
    step (claimed.withPending [.hold fromCueTo5]) =
        .next (after (.hold fromCueTo5) claimed) ∧ storeSound claimed ∧ withinCapacity claimed ∧ distinctNames claimed := by
  refine ⟨rfl, ⟨by decide, fun w h => by cases h⟩, by unfold withinCapacity; decide +kernel, by unfold distinctNames; decide +kernel⟩

theorem witness_StepKeepsRatesFlagsAndMarker : rateInRange claimed ∧ recurWithinSticky claimed ∧ markerOnlyOnBus claimed := by
  refine ⟨by unfold rateInRange; decide +kernel, fun c => by cases c <;> decide, fun _ => rfl⟩

theorem witness_StepKeepsStationOutputs :
    driveEnableRight active ∧ stationTimersRight active ∧ statusPinsRight active ∧ resetPinRight active := by
  refine ⟨rfl, by unfold stationTimersRight; decide, rfl, by unfold resetPinRight; decide⟩

theorem witness_StationStateChangesOnlyByItsTable :
    hears offline ∧ stationTimersRight offline ∧ exec (.online fromCueTo5) offline = .next (after (.online fromCueTo5) offline) ∧
      hears (after (.online fromCueTo5) offline) := by
  refine ⟨by decide, by unfold stationTimersRight; decide, rfl, by decide⟩

theorem witness_StoredRecordReadsBack : bodySound deskTwo = true := by decide

theorem witness_SentStateFrameIsReceived :
    (3 : Nat) < 32 ∧ [(⟨⟨3, 14, 6, 9⟩, .leg, .pending ⟨3, 15⟩⟩ : Claim)].length ≤ 4 ∧ (14 : Nat) ≤ 31 := by decide

theorem witness_MinimumDurationIsLeast : 1 ≤ headLimits.speed ∧ 1 ≤ headLimits.accel ∧ 1 ≤ 9000 := by decide

theorem witness_SetpointsRunFromStartToTarget :
    (∀ a ∈ Axis.all, 1 ≤ (testConfig.axes.get a).speed ∧ 1 ≤ (testConfig.axes.get a).accel) ∧
      ((buildPlan testConfig atRest floorShot).candidates[0]?).isSome = true ∧
      1 ≤ (buildPlan testConfig atRest floorShot).duration := by decide +kernel

end Sys2Proof.Tests
end

section
/-! The minimum duration (R54): the least whole numbers that the two limits of an axis allow. Each rounding function of the
planner is characterised by when its result is at most `n`; that the result itself meets the limit, and that it is the least
number which does, both follow. -/
namespace Sys2Proof.Machine

/-- The bitwise search keeps its bracket: the root lies from `r` up to `r + 2 ^ bits`. -/
theorem sqrtFrom_eq_sqrt {b x r : Nat} (low : r * r ≤ x) (high : x < (r + 2 ^ b) * (r + 2 ^ b)) :
    sqrtFrom b x r = Nat.sqrt x := by
  induction b generalizing r with
  | zero => exact Nat.eq_sqrt.mpr ⟨low, high⟩
  | succ b ih =>
    unfold sqrtFrom
    split
    case isTrue bit =>
      have top : r + 2 ^ b + 2 ^ b = r + 2 ^ (b + 1) := by rw [Nat.pow_succ]; omega
      exact ih bit (by rwa [top])
    case isFalse bit => exact ih low (Nat.lt_of_not_le bit)

theorem floorSqrt_eq_sqrt (x : Nat) : floorSqrt x = Nat.sqrt x := by
  refine sqrtFrom_eq_sqrt (Nat.zero_le x) ?_
  calc x < 2 ^ (Nat.log2 x + 1) := Nat.lt_log2_self
    _ ≤ 2 ^ ((Nat.log2 x / 2 + 1) + (Nat.log2 x / 2 + 1)) := Nat.pow_le_pow_right (by decide) (by omega)
    _ = (0 + 2 ^ (Nat.log2 x / 2 + 1)) * (0 + 2 ^ (Nat.log2 x / 2 + 1)) := by rw [Nat.zero_add, Nat.pow_add]

theorem ceilSqrt_le_iff {x n : Nat} : ceilSqrt x ≤ n ↔ x ≤ n ^ 2 := by
  rw [ceilSqrt, floorSqrt_eq_sqrt]
  split
  case isTrue square => rw [← Nat.pow_le_pow_iff_left (n := 2) (by decide), Nat.pow_two, square]
  case isFalse noSquare =>
    have below : Nat.sqrt x ^ 2 < x := Nat.lt_of_le_of_ne (Nat.sqrt_le' x) (by rwa [Nat.pow_two])
    rw [Nat.succ_le_iff]
    exact ⟨fun h => (Nat.sqrt_lt'.mp h).le, fun h => lt_of_pow_lt_pow_left₀ 2 n.zero_le (below.trans_le h)⟩

theorem ceilDiv_le_iff {a b n : Nat} (hb : 0 < b) : ceilDiv a b ≤ n ↔ a ≤ b * n :=
  ceilDiv_le_iff_le_mul hb

/-- Tv as R54 gives it. -/
theorem speedDuration_le_iff {d v n : Nat} (hv : 1 ≤ v) : speedDuration d v ≤ n ↔ 4 * d ≤ 3 * v * n :=
  ceilDiv_le_iff (by omega)

/-- Ta as R54 gives it: rounding the quotient up before the root changes nothing, since `n ^ 2` is whole. -/
theorem accelDuration_le_iff {d aq n : Nat} (ha : 1 ≤ aq) : accelDuration d aq ≤ n ↔ 4096 * d ≤ 3 * aq * n ^ 2 :=
  ceilSqrt_le_iff.trans (ceilDiv_le_iff (by omega))

@[simp] theorem minDuration_zero (l : AxisLimits) : minDuration 0 l = 0 := if_pos rfl

theorem minDuration_of_pos {d : Nat} (l : AxisLimits) (hd : 1 ≤ d) :
    minDuration d l = max (speedDuration d l.speed) (accelDuration d l.accel) := if_neg (by omega)

theorem speedDuration_pos {d v : Nat} (hv : 1 ≤ v) (hd : 1 ≤ d) : 1 ≤ speedDuration d v := by
  by_contra small
  have : 4 * d ≤ 3 * v * 0 := (speedDuration_le_iff hv).mp (by omega)
  omega

/-- Settles O59: the minimum duration is the greater of Tv and Ta, each the least its limit allows. -/
theorem minimumDurationIsLeast : Obligations.MinimumDurationIsLeast := by
  intro d l hv ha
  refine ⟨fun hd => hd ▸ minDuration_zero l, fun hd =>
    ⟨speedDuration d l.speed, accelDuration d l.accel, minDuration_of_pos l hd, ?positive, ⟨?speed, ?speedLeast⟩, ?accel, ?accelLeast⟩⟩
  case positive => exact le_max_of_le_left (speedDuration_pos hv hd)
  case speed => exact (speedDuration_le_iff hv).mp le_rfl
  case speedLeast => exact fun _ => (speedDuration_le_iff hv).mpr
  case accel => exact (accelDuration_le_iff ha).mp le_rfl
  case accelLeast => exact fun _ => (accelDuration_le_iff ha).mpr

end Sys2Proof.Machine
end

section
/-! The order of pending claims (R74): priority, then retry count, then the lower pedestal number. Different numbers leave no
tie, so of two stations that test each other's claim exactly one loses (R79). -/
namespace Sys2Proof.Machine

/-- Station `m` with rank `a` comes after station `n` with rank `b` in the order of R74. -/
def outrankedBy (a : Rank) (m : Nat) (b : Rank) (n : Nat) : Prop :=
  a.priority < b.priority ∨ (a.priority = b.priority ∧ (a.retry < b.retry ∨ (a.retry = b.retry ∧ n < m)))

theorem beats_iff_outrankedBy {c : Claim} {b : Rank} (pending : c.state = .pending b) (a : Rank) (m n : Nat) :
    beats a m c n = true ↔ outrankedBy a m b n := by
  simp only [beats, pending, decide_eq_true_eq, outrankedBy]

theorem beats_eq_false_iff {c : Claim} {b : Rank} (pending : c.state = .pending b) (a : Rank) (m n : Nat) :
    beats a m c n = false ↔ ¬ outrankedBy a m b n := by
  rw [← beats_iff_outrankedBy pending, Bool.not_eq_true]

/-- The order is strict and total on stations with different numbers: the first key that differs decides. -/
theorem outrankedBy_iff_not_swap {m n : Nat} (different : m ≠ n) (a b : Rank) :
    outrankedBy a m b n ↔ ¬ outrankedBy b n a m := by
  unfold outrankedBy
  by_cases priority : a.priority = b.priority
  case neg => omega
  case pos =>
    by_cases retry : a.retry = b.retry
    case neg => omega
    case pos => simp only [priority, retry, lt_irrefl, true_and, false_or]; omega

/-- Settles O40: a pending claim beats exactly the ranks it comes before in R74's order, which is strict and total. -/
theorem exactlyOneOfTwoPendingClaimsLoses : Obligations.ExactlyOneOfTwoPendingClaimsLoses := by
  intro a b m n c d different heardB heardA
  have mLoses : beats a m c n = true ↔ outrankedBy a m b n := beats_iff_outrankedBy heardB a m n
  have nKeeps : beats b n d m = false ↔ ¬ outrankedBy b n a m := beats_eq_false_iff heardA b n m
  exact ⟨mLoses, mLoses.trans ((outrankedBy_iff_not_swap different a b).trans nKeeps.symm)⟩

end Sys2Proof.Machine
end

section
/-! Going online (R10, R130, R179): the conditions of ONLINE, and what a request taken from the cue station then does. -/
namespace Sys2Proof.Machine

/-- The conditions of R179, read off the state. -/
theorem mayGoOnline_iff {s : State} :
    mayGoOnline s = true ↔ s.control.station = .offline ∧ s.control.config ≠ none ∧ s.control.readEnded = true ∧
      s.control.identityConflict = false := by
  simp only [mayGoOnline, Bool.and_eq_true, beq_iff_eq, Option.isSome_iff_ne_none, Bool.not_eq_true', and_assoc]

/-- The spent condition is not among the conditions of going online. -/
@[simp] theorem mayGoOnline_endSpent (s : State) : mayGoOnline (endSpent s) = mayGoOnline s := rfl

/-- ONLINE taken from the cue station: its conditions are tested on the state as it was heard. -/
theorem exec_online_taken {h : Header} {s : State} (taken : takenFromCue h s) :
    exec (.online h) s = .next (if mayGoOnline s then enterJoining (endSpent s) else endSpent s) := by
  obtain ⟨hearing, other, cue, toUs⟩ := taken
  have armed : exec (.online h) s = execOnline h s := rfl
  rw [armed, execOnline, heardFromCue_taken h _ s hearing other cue toUs, mayGoOnline_endSpent]

/-- Settles O42: ONLINE enters JOINING under R179's four conditions, and otherwise only ends the spent condition. -/
theorem onlineEntersJoining : Obligations.OnlineEntersJoining := by
  intro s h taken may
  rw [exec_online_taken taken]
  constructor
  case left =>
    intro meets
    rw [if_pos (mayGoOnline_iff.mpr meets)]
    rfl
  case right =>
    intro fails
    rw [if_neg (mt mayGoOnline_iff.mp fails)]

end Sys2Proof.Machine
end

section
/-! What the machine can do while it hears, cut into elementary updates. Every shared operation of the model is a run of such
updates (`Does`), so a property that each update keeps is kept by every operation: the invariants of `Safety.lean` are proved
update by update, once. -/
namespace Sys2Proof.Machine

/-- One elementary update. No update enters or leaves OFFLINE or JOINING; ACTIVE is left by a raise of STOP severity only. A quiet
one (`loud` false) clears no STATE marker, starts no settle timer and, while a RESTART waits, keeps the rate: the shared operations of the cue list, the claim manager,
the profile generator and the fault unit are quiet. -/
inductive UpdateBy (loud : Bool) : State → State → Prop
  | marker (s : State) : UpdateBy loud s (setMarker s)
  | report (r : Report) (s : State) : UpdateBy loud s (pushReport r s)
  | flags (c : FaultClass) (n : FaultName) (s : State) (only : s.control.station ≠ .active ∨ isStop s c = false) :
      UpdateBy loud s (raiseFlags c n s)
  | stop (c : FaultClass) (n : FaultName) (s : State) (active : s.control.station = .active) (severe : isStop s c = true) :
      UpdateBy loud s (setFaultStop (raiseFlags c n s))
  | power (enable : Bool) (s : State) (stopped : s.control.station = .faultStop) :
      UpdateBy loud s { s with control := { s.control with driveEnable := enable } }
  | restart (waits : Bool) (s : State) (quiet : loud = true) : UpdateBy loud s { s with control := { s.control with restartPending := waits } }
  | cues (l : List CueEntry) (s : State) (tags : (l.map CueEntry.tag).Sublist (s.cues.map CueEntry.tag))
      (retries : ∀ e ∈ l, e.retry ≤ 15 ∨ ∃ d ∈ s.cues, e.retry = d.retry) : UpdateBy loud s { s with cues := l }
  | newCue (e : CueEntry) (s : State) (room : s.cues.length < 8) (fresh : e.tag ∉ s.cues.map CueEntry.tag)
      (retry : e.retry ≤ 15) : UpdateBy loud s { s with cues := s.cues ++ [e] }
  | claims (c : ClaimManager) (s : State)
      (quiet : loud = true ∨ (c.settleTimer = true → s.claims.settleTimer = true)) : UpdateBy loud s { s with claims := c }
  | groups (g : Groups) (s : State)
      (ids : (g.records.map GroupRecord.group).Sublist (s.groups.records.map GroupRecord.group)) :
      UpdateBy loud s { s with groups := g }
  | newGroup (r : GroupRecord) (s : State) (room : s.groups.records.length < 4)
      (fresh : r.group ∉ s.groups.records.map GroupRecord.group) :
      UpdateBy loud s { s with groups := { s.groups with records := s.groups.records ++ [r] } }
  | bus (b : BusInterface) (s : State) (marker : b.stateMarker = true → s.bus.stateMarker = true)
      (ready : s.bus.readyFifo.length ≤ 4 → b.readyFifo.length ≤ 4)
      (reports : b.reportFifo.length ≤ s.bus.reportFifo.length)
      (cursor : s.bus.cursor.remaining ≤ 8 → b.cursor.remaining ≤ 8)
      (abandons : s.bus.abandonCount ≤ 15 → b.abandonCount ≤ 15)
      (quiet : loud = true ∨ b.stateMarker = s.bus.stateMarker) : UpdateBy loud s { s with bus := b }
  | profile (p : Profile) (s : State) (rate : (configOf s).liveRate ≤ 256 → s.profile.rate ≤ 256 → p.rate ≤ 256)
      (quiet : loud = true ∨ s.control.restartPending = false ∨ p.rate = s.profile.rate) :
      UpdateBy loud s { s with profile := p }
  | port (p : AxisPort) (s : State) (timer : p.servoTimer = s.port.servoTimer) : UpdateBy loud s { s with port := p }
  | tally (t : Tally) (s : State) : UpdateBy loud s { s with tally := t }
  | store (m : ShotStore) (free : Nat) (s : State)
      (sound : storeSound s → storeSound { s with store := m, free := free }) : UpdateBy loud s { s with store := m, free := free }
  | peers (l : List PeerEntry) (s : State) (right : peersRight s → peersRight { s with peers := l }) :
      UpdateBy loud s { s with peers := l }

/-- A run of elementary updates. -/
abbrev DoesBy (loud : Bool) : State → State → Prop := Relation.ReflTransGen (UpdateBy loud)

/-- An elementary update, quiet or not. -/
abbrev Update : State → State → Prop := UpdateBy true

/-- A run of elementary updates, quiet or not. -/
abbrev Does : State → State → Prop := DoesBy true

variable {loud : Bool}

theorem UpdateBy.does {s t : State} (h : UpdateBy loud s t) : DoesBy loud s t := .single h

@[refl] theorem does_refl (s : State) : DoesBy loud s s := .refl

/-! An update read off the state it leads to: `only` says which field alone differs. -/

theorem does_of_cues {s t : State} (only : t = { s with cues := t.cues })
    (tags : (t.cues.map CueEntry.tag).Sublist (s.cues.map CueEntry.tag))
    (retries : ∀ e ∈ t.cues, e.retry ≤ 15 ∨ ∃ d ∈ s.cues, e.retry = d.retry) : DoesBy loud s t :=
  only ▸ (UpdateBy.cues t.cues s tags retries).does

theorem does_of_claims {s t : State} (only : t = { s with claims := t.claims })
    (quiet : loud = true ∨ (t.claims.settleTimer = true → s.claims.settleTimer = true) := by exact .inl rfl) :
    DoesBy loud s t :=
  only ▸ (UpdateBy.claims t.claims s quiet).does

theorem does_of_groups {s t : State} (only : t = { s with groups := t.groups })
    (ids : (t.groups.records.map GroupRecord.group).Sublist (s.groups.records.map GroupRecord.group)) : DoesBy loud s t :=
  only ▸ (UpdateBy.groups t.groups s ids).does

theorem does_of_profile {s t : State} (only : t = { s with profile := t.profile })
    (rate : (configOf s).liveRate ≤ 256 → s.profile.rate ≤ 256 → t.profile.rate ≤ 256)
    (quiet : loud = true ∨ s.control.restartPending = false ∨ t.profile.rate = s.profile.rate := by exact .inl rfl) :
    DoesBy loud s t :=
  only ▸ (UpdateBy.profile t.profile s rate quiet).does

theorem does_of_port {s t : State} (only : t = { s with port := t.port })
    (timer : t.port.servoTimer = s.port.servoTimer) : DoesBy loud s t :=
  only ▸ (UpdateBy.port t.port s timer).does

theorem does_of_bus {s t : State} (only : t = { s with bus := t.bus })
    (marker : t.bus.stateMarker = true → s.bus.stateMarker = true)
    (ready : s.bus.readyFifo.length ≤ 4 → t.bus.readyFifo.length ≤ 4)
    (reports : t.bus.reportFifo.length ≤ s.bus.reportFifo.length)
    (cursor : s.bus.cursor.remaining ≤ 8 → t.bus.cursor.remaining ≤ 8)
    (abandons : s.bus.abandonCount ≤ 15 → t.bus.abandonCount ≤ 15)
    (quiet : loud = true ∨ t.bus.stateMarker = s.bus.stateMarker := by exact .inl rfl) : DoesBy loud s t :=
  only ▸ (UpdateBy.bus t.bus s marker ready reports cursor abandons quiet).does

theorem does_of_tally {s t : State} (only : t = { s with tally := t.tally }) : DoesBy loud s t :=
  only ▸ (UpdateBy.tally t.tally s).does

theorem does_of_peers {s t : State} (only : t = { s with peers := t.peers }) (right : peersRight s → peersRight t) :
    DoesBy loud s t := by
  have given := UpdateBy.peers (loud := loud) t.peers s (only ▸ right)
  exact only ▸ given.does

theorem does_of_store {s t : State} (only : t = { s with store := t.store, free := t.free })
    (sound : storeSound s → storeSound t) : DoesBy loud s t := by
  have given := UpdateBy.store (loud := loud) t.store t.free s (only ▸ sound)
  exact only ▸ given.does

/-! ### Ops -/

theorem does_setMarker (s : State) : DoesBy loud s (setMarker s) := (UpdateBy.marker s).does
theorem does_pushReport (r : Report) (s : State) : DoesBy loud s (pushReport r s) := (UpdateBy.report r s).does

/-- Entries of the list changed in place keep their tags; a retry count stays or is within its bound. -/
theorem does_modifyCue (k : Nat) (f : CueEntry → CueEntry) (s : State) (tag : ∀ e, (f e).tag = e.tag)
    (retry : ∀ e, (f e).retry ≤ 15 ∨ (f e).retry = e.retry) : DoesBy loud s (modifyCue k f s) := by
  refine does_of_cues rfl ?tags ?retries
  case tags =>
    have same : (s.cues.modify k f).map CueEntry.tag = s.cues.map CueEntry.tag := by
      apply List.ext_getElem?
      intro i
      simp only [List.getElem?_map, List.getElem?_modify]
      split <;> cases s.cues[i]? <;> simp [tag]
    rw [modifyCue_cues, same]
  case retries =>
    intro e he
    obtain ⟨i, hi⟩ := List.mem_iff_getElem?.mp he
    rw [modifyCue_cues, List.getElem?_modify] at hi
    obtain ⟨d, hd, rfl⟩ := Option.map_eq_some_iff.mp hi
    have mem : d ∈ s.cues := List.mem_of_getElem? hd
    split
    · exact (retry d).imp_right fun h => ⟨d, mem, h⟩
    · exact .inr ⟨d, mem, rfl⟩

/-- An entry of the list changed in place, its tag and its retry count kept. -/
theorem does_entry (k : Nat) {f : CueEntry → CueEntry} (s : State) (tag : ∀ e, (f e).tag = e.tag := by intro _; rfl)
    (retry : ∀ e, (f e).retry = e.retry := by intro _; rfl) : DoesBy loud s (modifyCue k f s) :=
  does_modifyCue k f s tag fun e => .inr (retry e)

/-- A list cut down to some of its entries. -/
theorem does_cues_sublist {s t : State} (only : t = { s with cues := t.cues }) (h : t.cues.Sublist s.cues) : DoesBy loud s t :=
  does_of_cues only (h.map _) fun e he => .inr ⟨e, h.subset he, rfl⟩

/-- The profile generator's state changed, its rate kept. -/
theorem does_profile {s t : State} (only : t = { s with profile := t.profile })
    (rate : t.profile.rate = s.profile.rate) : DoesBy loud s t :=
  does_of_profile only (fun _ h => rate ▸ h) (.inr (.inr rate))

theorem does_restartBlanking (s : State) : DoesBy loud s (restartBlanking s) := does_of_port rfl rfl

theorem does_retarget (b s : State) : DoesBy loud s (retarget b s) := by
  unfold retarget
  split
  · exact does_restartBlanking s
  · rfl

theorem does_setMotion (m : MotionState) (s : State) : DoesBy loud s (setMotion m s) := by
  unfold setMotion
  split
  · rfl
  · exact .trans (does_profile (t := { s with profile := { s.profile with motion := m } }) rfl rfl) (does_setMarker _)

theorem does_beginStop (k : StopKind) (s : State) : DoesBy loud s (beginStop k s) :=
  .trans (does_profile (t := { s with profile := { s.profile with stopKind := some k } }) rfl rfl)
    ((does_setMotion _ _).trans (does_retarget _ _))

theorem does_endMove (s : State) : DoesBy loud s (endMove s) := (does_setMotion .idle s).trans (does_profile rfl rfl)

theorem does_faultMotion (s : State) (stopped : s.control.station = .faultStop) : DoesBy loud s (faultMotion s) := by
  unfold faultMotion
  split
  · exact (UpdateBy.power false s stopped).does
  · exact does_profile rfl rfl
  · exact does_beginStop _ s

/-- The READY FIFO changed within its places. -/
theorem does_readyFifo {s t : State} (only : t = { s with bus := { s.bus with readyFifo := t.bus.readyFifo } })
    (h : s.bus.readyFifo.length ≤ 4 → t.bus.readyFifo.length ≤ 4) : DoesBy loud s t := by
  have given := (UpdateBy.bus (loud := loud) { s.bus with readyFifo := t.bus.readyFifo } s id h le_rfl id id (.inr rfl)).does
  exact only ▸ given

/-- Joining the READY FIFO changes that FIFO alone. -/
theorem joinReady_only (r : QueuedReady) (s : State) :
    joinReady r s = { s with bus := { s.bus with readyFifo := (joinReady r s).bus.readyFifo } } := by
  by_cases room :
    (if s.bus.readyFifo.length < readyCapacity then s.bus.readyFifo
      else s.bus.readyFifo.take (readySent s) ++ dropWithdrawal (s.bus.readyFifo.drop (readySent s))).length < readyCapacity
  · simp only [joinReady, if_pos room]
  · simp only [joinReady, if_neg room]

theorem does_joinReady (r : QueuedReady) (s : State) : DoesBy loud s (joinReady r s) :=
  does_readyFifo (joinReady_only r s) (joinReady_capacity r s)

@[simp] theorem orphanSent_readyFifo_length (g : Byte) (s : State) :
    (orphanSent g s).bus.readyFifo.length = s.bus.readyFifo.length := by
  simp only [orphanSent, List.length_append, List.length_map, List.length_take, List.length_drop]
  omega

theorem does_orphanSent (g : Byte) (s : State) : DoesBy loud s (orphanSent g s) :=
  does_readyFifo rfl fun h => (orphanSent_readyFifo_length g s).symm ▸ h

theorem does_placeWithdrawal (g tag : Byte) (s : State) : DoesBy loud s (placeWithdrawal g tag s) := by
  unfold placeWithdrawal
  dsimp only
  split
  · refine does_readyFifo rfl fun h => ?_
    simp only [List.length_append, replaceReadiness_length, List.length_take, List.length_drop]
    omega
  · exact (does_orphanSent g s).trans (does_joinReady _ _)

theorem does_dropReadiness (g : Byte) (s : State) : DoesBy loud s (dropReadiness g s) := by
  refine (does_orphanSent g s).trans (does_readyFifo rfl fun h => ?_)
  have fewer := List.length_filter_le (fun r => !isReadiness g r)
    ((orphanSent g s).bus.readyFifo.drop (readySent (orphanSent g s)))
  simp only [dropReadiness, List.length_append, List.length_take, List.length_drop] at fewer ⊢
  omega

theorem does_setOwn (own : List OwnClaim) (s : State) : DoesBy loud s (setOwn own s) := by
  unfold setOwn
  split
  · rfl
  · exact .trans (does_of_claims (t := { s with claims := { s.claims with own := own } }) rfl (.inr id)) (does_setMarker _)

theorem does_stopClaimTimers (s : State) : DoesBy loud s (stopClaimTimers s) := does_of_claims rfl (.inr fun on => by cases on)
theorem does_setOverlap (l : List Nat) (s : State) : DoesBy loud s (setOverlap l s) := does_of_claims rfl (.inr id)

theorem does_dropGroup (e : CueEntry) (s : State) : DoesBy loud s (dropGroup e s) := by
  unfold dropGroup
  split
  · rfl
  · dsimp only
    split
    · exact does_of_groups rfl (List.filter_sublist.map _)
    · exact does_of_groups rfl (List.filter_sublist.map _)

theorem does_dropAt (k : Nat) (s : State) : DoesBy loud s (dropAt k s) := by
  unfold dropAt
  split
  · rfl
  · have erased : DoesBy loud s { s with cues := s.cues.eraseIdx k } := does_cues_sublist rfl (List.eraseIdx_sublist ..)
    dsimp only
    split
    · exact erased.trans ((does_dropGroup _ _).trans (does_setOwn _ _))
    · exact erased.trans ((does_stopClaimTimers _).trans ((does_dropGroup _ _).trans (does_setOwn _ _)))

theorem does_removeAt (k : Nat) (o : CueOutcome) (w : Bool) (s : State) : DoesBy loud s (removeAt k o w s) := by
  unfold removeAt
  split
  · rfl
  · rename_i e _
    refine (does_pushReport (.cue e.tag o) s).trans (.trans ?_ (does_dropAt k _))
    split
    · split
      · exact does_placeWithdrawal _ _ _
      · rfl
    · rfl

theorem does_removeFrom (k : Nat) (o : CueOutcome) (n : Nat) (s : State) : DoesBy loud s (removeFrom k o n s) := by
  induction n generalizing s with
  | zero => rfl
  | succ n ih => exact (does_removeAt k o true s).trans (ih _)

theorem does_removeIdle (o : CueOutcome) (s : State) : DoesBy loud s (removeIdle o s) := by
  unfold removeIdle
  split
  · exact does_removeFrom ..
  · exact does_removeFrom ..

theorem does_setHeadEnding (o : CueOutcome) (s : State) : DoesBy loud s (setHeadEnding o s) :=
  does_entry 0 s

theorem does_failList (s : State) : DoesBy loud s (failList s) := by
  unfold failList
  refine .trans ?_ (does_removeIdle _ _)
  split
  · exact does_setHeadEnding _ s
  · rfl

/-! ### Raising a fault

The overlap test goes by a way of raising a fault; within entry to FAULT_STOP that way is flags alone (log 14). -/

/-- What never leaves FAULT_STOP: an update made there. -/
theorem update_stopped {s t : State} (h : UpdateBy loud s t) (stopped : s.control.station = .faultStop) :
    t.control.station = .faultStop := by
  cases h <;> simp_all

theorem does_stopped {s t : State} (h : DoesBy loud s t) (stopped : s.control.station = .faultStop) :
    t.control.station = .faultStop := by
  induction h with
  | refl => exact stopped
  | tail _ last ih => exact update_stopped last ih

/-- The overlap test keeps within a set of states that its way of raising a fault and its updates keep. -/
theorem does_overlapTestBy {fault : FaultClass → FaultName → State → State} {ok : State → Prop}
    (raises : ∀ c n s, ok s → DoesBy loud s (fault c n s)) (stays : ∀ {s t}, DoesBy loud s t → ok s → ok t)
    (n : Nat) {s : State} (h : ok s) : DoesBy loud s (overlapTestBy fault n s) := by
  unfold overlapTestBy
  split
  · rfl
  · split
    · split
      · rfl
      · exact (does_setOverlap _ s).trans (raises _ _ _ (stays (does_setOverlap _ s) h))
    · exact does_setOverlap _ s

theorem does_overlapAllBy {fault : FaultClass → FaultName → State → State} {ok : State → Prop}
    (raises : ∀ c n s, ok s → DoesBy loud s (fault c n s)) (stays : ∀ {s t}, DoesBy loud s t → ok s → ok t)
    {s : State} (h : ok s) : DoesBy loud s (overlapAllBy fault s) := by
  unfold overlapAllBy
  generalize s.peers.map PeerEntry.number = l
  induction l generalizing s with
  | nil => rfl
  | cons n l ih =>
    have one := does_overlapTestBy raises stays n h
    exact one.trans (ih (stays one h))

theorem does_overlapAfterBy {fault : FaultClass → FaultName → State → State} {ok : State → Prop}
    (raises : ∀ c n s, ok s → DoesBy loud s (fault c n s)) (stays : ∀ {s t}, DoesBy loud s t → ok s → ok t)
    (b : State) {s : State} (h : ok s) : DoesBy loud s (overlapAfterBy fault b s) := by
  unfold overlapAfterBy
  split
  · rfl
  · exact does_overlapAllBy raises stays h

@[simp] theorem setFaultStop_station (s : State) : (setFaultStop s).control.station = .faultStop := by
  simp [setFaultStop]

/-- In FAULT_STOP raising the flags of a class is an elementary update. -/
theorem does_raiseFlags_stopped (c : FaultClass) (n : FaultName) (s : State) (stopped : s.control.station = .faultStop) :
    DoesBy loud s (raiseFlags c n s) := (UpdateBy.flags c n s (.inl (by simp [stopped]))).does

/-- The rest of the entry to FAULT_STOP, once the station is there. -/
theorem does_enterFaultStop (s : State) : DoesBy loud (setFaultStop s) (enterFaultStop s) := by
  have failed : DoesBy loud (setFaultStop s) (failList (setFaultStop s)) := does_failList _
  have stopped := does_stopped failed (setFaultStop_station s)
  have tested := does_overlapAfterBy (loud := loud) (ok := fun s => s.control.station = .faultStop) does_raiseFlags_stopped
    does_stopped s stopped
  exact failed.trans (tested.trans (does_faultMotion _ (does_stopped tested stopped)))

theorem does_raise (c : FaultClass) (n : FaultName) (s : State) : DoesBy loud s (raise c n s) := by
  by_cases h : s.control.station = .active ∧ isStop s c = true
  · rw [raise_stop c n s h.1 h.2]
    exact (UpdateBy.stop c n s h.1 h.2).does.trans (does_enterFaultStop _)
  · have only : s.control.station ≠ .active ∨ isStop s c = false := by
      rwa [Classical.not_and_iff_not_or_not, Bool.not_eq_true] at h
    rw [raise_flags_only c n s only]
    exact (UpdateBy.flags c n s only).does

theorem does_overlapTest (n : Nat) (s : State) : DoesBy loud s (overlapTest n s) :=
  does_overlapTestBy (ok := fun _ => True) (fun c n s _ => does_raise c n s) (fun _ _ => trivial) n trivial
theorem does_overlapAll (s : State) : DoesBy loud s (overlapAll s) :=
  does_overlapAllBy (ok := fun _ => True) (fun c n s _ => does_raise c n s) (fun _ _ => trivial) trivial
theorem does_overlapAfter (b s : State) : DoesBy loud s (overlapAfter b s) :=
  does_overlapAfterBy (ok := fun _ => True) (fun c n s _ => does_raise c n s) (fun _ _ => trivial) b trivial

theorem does_changeClaims (own : List OwnClaim) (s : State) : DoesBy loud s (changeClaims own s) :=
  (does_setOwn own s).trans (does_overlapAfter s _)

/-! ### Progress -/

theorem does_noteLegsAdded (s : State) : DoesBy loud s (noteLegsAdded s) := does_of_bus rfl id id le_rfl id id (.inr rfl)

theorem does_announceLegs (k : Nat) (e : CueEntry) (l : List Leg) (s : State) : DoesBy loud s (announceLegs k e l s) :=
  (does_setOwn _ s).trans (does_noteLegsAdded _)

theorem does_routeTest (k : Nat) (s : State) : DoesBy loud s (routeTest k s) := by
  unfold routeTest
  split
  · rfl
  · split
    · split
      · rfl
      · dsimp only
        split
        · exact does_entry k s
        · exact (does_entry k s).trans (does_announceLegs _ _ _ _)
    · rfl

theorem does_retestRoutes (s : State) : DoesBy loud s (retestRoutes s) := (does_routeTest 0 s).trans (does_routeTest 1 _)

theorem does_raiseLimits (l : List Axis) (s : State) : DoesBy loud s (raiseLimits l s).1 := by
  induction l generalizing s with
  | nil => rfl
  | cons a l ih =>
    have one := does_raise (loud := loud) .axisLimit (.axis a) s
    unfold raiseLimits
    dsimp only
    split
    · exact one.trans (ih _)
    · exact one

theorem does_startClaimWait (p : Plan) (s : State) : DoesBy loud s (startClaimWait p s) := by
  unfold startClaimWait
  split
  · exact does_of_claims rfl (.inr id)
  · rfl

theorem does_enterRouting (k : Nat) (c : ShotContent) (p : Plan) (s : State) : DoesBy loud s (enterRouting k c p s) :=
  (does_entry k s).trans
    ((does_startClaimWait p _).trans (does_routeTest k _))

theorem does_planAt (k : Nat) (s : State) : DoesBy loud s (planAt k s).1 := by
  unfold planAt
  split
  · rfl
  · split
    · rfl
    · split
      · exact does_removeAt ..
      · rename_i c _
        have limits := does_raiseLimits (loud := loud) (clampedAxes (configOf s) (planStarts k s) c) s
        dsimp only
        split
        · rename_i t ht
          rwa [ht] at limits
        · rename_i t ht
          rw [ht] at limits
          split
          · exact limits.trans (does_removeAt ..)
          · exact limits.trans (does_enterRouting ..)

theorem does_fillSecond (n : Nat) (s : State) : DoesBy loud s (fillSecond n s) := by
  induction n generalizing s with
  | zero => rfl
  | succ n ih =>
    have planned := does_planAt (loud := loud) 1 s
    unfold fillSecond
    split
    · split
      · rename_i t ht
        rw [ht] at planned
        exact planned.trans (ih t)
      · rename_i t _ _ ht
        rwa [ht] at planned
    · rfl

theorem does_endHead (o : CueOutcome) (s : State) : DoesBy loud s (endHead o s) := by
  unfold endHead
  split
  · rfl
  · rename_i e rest list
    refine (does_pushReport (.cue e.tag o) s).trans (.trans (does_cues_sublist rfl ?_) (does_dropGroup e _))
    rw [pushReport_cues, list]
    exact List.sublist_cons_self e rest

theorem does_completeMove (s : State) : DoesBy loud s (completeMove s) :=
  (does_endMove s).trans ((does_endHead _ _).trans ((does_setOwn _ _).trans (does_overlapAfter _ _)))

theorem rateTarget_le (s : State) (live : (configOf s).liveRate ≤ 256) : rateTarget s ≤ 256 := by
  unfold rateTarget
  split
  · omega
  · split <;> omega

/-- A move that begins sets the rate: quietly while no RESTART waits. -/
theorem does_beginMove (s : State) (may : loud = true ∨ s.control.restartPending = false) : DoesBy loud s (beginMove s) := by
  unfold beginMove
  split
  · rfl
  · split
    · rfl
    · rename_i e _ _ _ p _
      refine .trans (does_profile (t := { s with profile :=
        { s.profile with
          plan := some (runningPlanOf p ((e.copy.map ShotContent.livePermitted).getD false)), time := 0, stopKind := none
          leg1Passed := false } }) rfl rfl) ((does_setMotion (if s.profile.hold then .held else .running) _).trans ?_)
      refine .trans (does_of_profile rfl (fun live _ => ?_) ?_) (does_restartBlanking _)
      · exact rateTarget_le _ live
      · exact may.imp_right fun clear => .inl ((kept_restartPending (kept_setMotion _ _)).trans clear)

theorem does_releaseParked (s : State) : DoesBy loud s (releaseParked s) := by
  unfold releaseParked
  split
  · split
    · rfl
    · exact does_changeClaims _ _
  · rfl

theorem does_startHead (s : State) (may : loud = true ∨ s.control.restartPending = false) :
    DoesBy loud s (startHead s).1 := by
  unfold startHead
  split
  · rfl
  · rename_i e _ _
    have running : DoesBy loud s (modifyCue 0 (fun e => { e with stage := .running }) s) :=
      does_entry 0 s
    have begun := (running.trans (does_pushReport (.cue e.tag .started) _)).trans
      ((does_beginMove _ (may.imp_right ((kept_restartPending ((kept_pushReport _ _).trans (kept_modifyCue _ _ s))).trans ·))).trans (does_releaseParked _))
    dsimp only
    split
    · exact begun.trans (does_completeMove _)
    · exact begun.trans (does_fillSecond _ _)

theorem does_reportDeferred (e : CueEntry) (s : State) : DoesBy loud s (reportDeferred e s) := by
  unfold reportDeferred
  split
  · rfl
  · exact (does_entry 0 s).trans (does_pushReport _ _)

theorem does_enterGroupWait (e : CueEntry) (s : State) : DoesBy loud s (enterGroupWait e s) := by
  refine ((does_entry 0 s).trans (does_joinReady _ _)).trans (does_of_groups rfl ?_)
  rfl

theorem does_testHead (s : State) : DoesBy loud s (testHead s).1 := by
  unfold testHead
  split
  · rfl
  · split
    · exact does_reportDeferred _ s
    · split
      · split
        · exact does_enterGroupWait _ s
        · split
          · rename_i may
            exact does_startHead s (.inr may.2.2)
          · rfl
      · rfl

theorem does_advance (n : Nat) (s : State) : DoesBy loud s (advance n s) := by
  have tested : ∀ {n} (_ : ∀ s, DoesBy loud s (advance n s)) (s : State), DoesBy loud s
      (match testHead s with
        | (u, true) => advance n u
        | (u, false) => u) := by
    intro n ih s
    have test := does_testHead (loud := loud) s
    split
    · rename_i u hu
      rw [hu] at test
      exact test.trans (ih u)
    · rename_i u hu
      rwa [hu] at test
  induction n generalizing s with
  | zero => rfl
  | succ n ih =>
    unfold advance
    split
    · rfl
    · split
      · split
        · have planned := does_planAt (loud := loud) 0 s
          split
          · rename_i t ht
            rw [ht] at planned
            exact planned.trans (ih t)
          · rename_i t ht
            rwa [ht] at planned
          · rename_i t ht
            rw [ht] at planned
            exact planned.trans (tested ih t)
        · rfl
      · exact tested ih s

theorem does_takeUpHead (s : State) : DoesBy loud s (takeUpHead s) := does_advance _ s

theorem does_retestHead (s : State) : DoesBy loud s (retestHead s) := by
  have test := does_testHead (loud := loud) s
  unfold retestHead
  split
  · rename_i u hu
    rw [hu] at test
    exact test.trans (does_takeUpHead u)
  · rename_i u hu
    rwa [hu] at test

theorem does_takeUpSecond (s : State) : DoesBy loud s (takeUpSecond s) := does_fillSecond _ s

theorem does_refill (k : Nat) (s : State) : DoesBy loud s (refill k s) := by
  unfold refill
  split
  · exact does_takeUpHead s
  · exact does_takeUpSecond s
  · rfl

theorem does_leaveAt (k : Nat) (o : CueOutcome) (w : Bool) (s : State) : DoesBy loud s (leaveAt k o w s) :=
  (does_removeAt k o w s).trans ((does_overlapAfter s _).trans (does_refill k _))

theorem does_discardPrePlan (s : State) : DoesBy loud s (discardPrePlan s) := by
  unfold discardPrePlan
  split
  · rfl
  · split
    · rfl
    · exact (does_modifyCue 0 _ s (by intro _; rfl) (by intro _; exact .inl (Nat.zero_le _))).trans (does_stopClaimTimers _)

theorem does_endStoppedMove (s : State) : DoesBy loud s (endStoppedMove s) :=
  (does_endMove s).trans ((does_endHead _ _).trans ((does_discardPrePlan _).trans
    ((does_setOwn _ _).trans (does_overlapAfter _ _))))

end Sys2Proof.Machine
end

section
/-! What each command does, in elementary updates and in the turns of station control, supply and reset (`Turn`): the
inversion lemma of `exec`, from which the invariants of every step follow update by update and turn by turn. -/
namespace Sys2Proof.Machine

/-! ### The peer table -/

theorem mem_insertPeer {p q : PeerEntry} {l : List PeerEntry} (h : q ∈ insertPeer p l) : q = p ∨ q ∈ l := by
  induction l with
  | nil => simpa [insertPeer] using h
  | cons r rs ih =>
    unfold insertPeer at h
    split at h
    · simpa using h
    · split at h
      · rcases List.mem_cons.mp h with h | h
        · exact .inl h
        · exact .inr (List.mem_cons_of_mem _ h)
      · rcases List.mem_cons.mp h with h | h
        · exact .inr (h ▸ List.mem_cons_self)
        · exact (ih h).imp_right (List.mem_cons_of_mem _)

theorem insertPeer_ascending {p : PeerEntry} {l : List PeerEntry} (h : (l.map PeerEntry.number).Pairwise (· < ·)) :
    ((insertPeer p l).map PeerEntry.number).Pairwise (· < ·) := by
  induction l with
  | nil => simp [insertPeer]
  | cons q qs ih =>
    rw [List.map_cons, List.pairwise_cons] at h
    obtain ⟨below, rest⟩ := h
    unfold insertPeer
    split
    case isTrue less =>
      simp only [List.map_cons, List.pairwise_cons, List.mem_cons, forall_eq_or_imp]
      exact ⟨⟨less, fun x hx => less.trans (below x hx)⟩, below, rest⟩
    case isFalse notLess =>
      split
      case isTrue same => rw [List.map_cons, List.pairwise_cons, same]; exact ⟨below, rest⟩
      case isFalse other =>
        rw [List.map_cons, List.pairwise_cons]
        refine ⟨fun x hx => ?_, ih rest⟩
        obtain ⟨r, hr, rfl⟩ := List.mem_map.mp hx
        rcases mem_insertPeer hr with rfl | hr
        · omega
        · exact below _ (List.mem_map_of_mem hr)

/-- Ascending numbers of pedestals other than one pedestal are at most 15. -/
theorem length_le_of_otherPedestals {l : List Nat} {own : Nat} (ascending : l.Pairwise (· < ·))
    (ownPedestal : isPedestal own = true) (others : ∀ n ∈ l, isPedestal n = true ∧ n ≠ own) : l.length ≤ 15 := by
  have room : own ∈ Finset.Icc 1 16 := by simpa [isPedestal] using ownPedestal
  have distinct : l.Nodup := ascending.imp Nat.ne_of_lt
  calc l.length = l.toFinset.card := (List.toFinset_card_of_nodup distinct).symm
    _ ≤ ((Finset.Icc 1 16).erase own).card := Finset.card_le_card fun n hn => by
        obtain ⟨pedestal, other⟩ := others n (List.mem_toFinset.mp hn)
        exact Finset.mem_erase.mpr ⟨other, by simpa [isPedestal] using pedestal⟩
    _ = 15 := by rw [Finset.card_erase_of_mem room]; rfl

/-- The table with some entries gone, others' status changed, is right when it was. -/
theorem peersRight_of_sublist {s t : State} (control : t.control = s.control)
    (numbers : (t.peers.map PeerEntry.number).Sublist (s.peers.map PeerEntry.number))
    (claims : ∀ p ∈ t.peers, ∃ q ∈ s.peers, p.number = q.number ∧ p.claims = q.claims) (h : peersRight s) :
    peersRight t := by
  obtain ⟨few, ascending, each, alone, early⟩ := h
  have gone : s.peers = [] → t.peers = [] := fun none => by
    rw [none, List.map_nil, List.sublist_nil, List.map_eq_nil_iff] at numbers
    exact numbers
  refine ⟨?_, ascending.sublist numbers, fun p hp => ?_, fun h => gone (alone (control ▸ h)), fun h => gone (early (control ▸ h))⟩
  · exact (by simpa using numbers.length_le : t.peers.length ≤ s.peers.length).trans few
  · obtain ⟨q, hq, number, same⟩ := claims p hp
    obtain ⟨pedestal, other, claimed⟩ := each q hq
    exact ⟨number ▸ pedestal, by rwa [number, control], by rwa [same]⟩

theorem payloadClaims_length (p : StatePayload) : (payloadClaims p).length ≤ 4 := by
  simp only [payloadClaims, List.length_map, List.length_take]
  omega

/-- The entry of a heard frame put into the table. -/
theorem peersRight_insertPeer {s t : State} {p : PeerEntry} (control : t.control = s.control)
    (table : t.peers = insertPeer p s.peers) (hearing : hears s) (pedestal : isPedestal p.number = true)
    (ownPedestal : isPedestal s.control.number = true) (other : p.number ≠ s.control.number)
    (few : p.claims.length ≤ 4) (h : peersRight s) : peersRight t := by
  obtain ⟨_, ascending, each, _, _⟩ := h
  have ascends : (t.peers.map PeerEntry.number).Pairwise (· < ·) := table ▸ insertPeer_ascending ascending
  have eachNow : ∀ q ∈ t.peers, isPedestal q.number = true ∧ q.number ≠ t.control.number ∧ q.claims.length ≤ 4 := by
    intro q hq
    rw [control]
    rcases mem_insertPeer (table ▸ hq) with rfl | hq
    · exact ⟨pedestal, other, few⟩
    · exact each q hq
  refine ⟨?_, ascends, eachNow, fun h => ?_, fun h => ?_⟩
  · have fewer := length_le_of_otherPedestals ascends (control ▸ ownPedestal) fun n hn => by
      obtain ⟨q, hq, rfl⟩ := List.mem_map.mp hn
      exact ⟨(eachNow q hq).1, (eachNow q hq).2.1⟩
    simpa using fewer
  · rw [control, ownPedestal] at h
    exact absurd h (by decide)
  · rw [control, hearing] at h
    exact absurd h (by decide)

/-! ### Turns -/

/-- What is no elementary update: supply and reset, the start sequence, and station control's changes of the station
state. -/
inductive Turn : State → State → Prop
  | halt (p : Phase) (pin : Bool) (s : State) (agrees : p = .unpowered ∨ (p = .heldInReset ∧ pin = true)) :
      Turn s (haltPart p (setResetPin pin s))
  | pin (level : Bool) (s : State) (off : s.control.phase = .unpowered) : Turn s (setResetPin level s)
  | start (s : State) : Turn s (startSequence s)
  | transfer (n : Nat) (s : State) : Turn s { s with control := { s.control with transferAbandons := n } }
  | configured (straps : BitVec 5) (image : List Byte) (s : State) (reading : s.control.phase = .readingConfiguration) :
      Turn s { s with
        control := { s.control with
          phase := .checkingStore, number := straps.toNat, config := checkConfiguration straps.toNat image
          configBadPin := (checkConfiguration straps.toNat image).isNone } }
  | hear (s : State) (checking : s.control.phase = .checkingStore) :
      Turn s { s with control := { s.control with phase := .hearing } }
  | readEnd (s : State) : Turn s { s with control := { s.control with readEnded := true } }
  | join (s : State) (hearing : hears s) (may : mayGoOnline s = true) : Turn s (enterJoining s)
  | conflict (s : State) (hearing : hears s) (off : s.control.station = .offline ∨ s.control.station = .joining) :
      Turn s (setIdentityConflict s)
  | activate (s : State) (hearing : hears s) (joined : s.control.joinTimer = true) :
      Turn s { s with control := { s.control with station := .active, joinTimer := false } }
  | stop (s : State) (hearing : hears s) (active : s.control.station = .active) : Turn s (setFaultStop s)
  | clear (classes : BitVec 16) (s : State) : Turn s (clearFlags classes s)
  | release (s : State) (hearing : hears s) (stopped : s.control.station = .faultStop) : Turn s (returnToActive s)
  | restart (s : State) (hearing : hears s) (online : s.control.station ≠ .offline ∨ s.port.servoTimer = true) :
      Turn s (restartEffect s)

theorem does_keep {P : State → Prop} (update : ∀ {s t}, Update s t → P s → P t) {s t : State} (h : Does s t)
    (start : P s) : P t := by
  induction h with
  | refl => exact start
  | tail _ last ih => exact update last ih

/-! ### What no update changes -/

/-- What no elementary update changes: station control but for the station state, drive enable, the FAULT pin and the waiting
RESTART, the servo period timer and the queue. -/
def fixed (s : State) :=
  ({ s.control with station := .offline, driveEnable := false, faultPin := false, restartPending := false },
    s.port.servoTimer, s.pending)

theorem update_fixed {s t : State} (h : Update s t) : fixed t = fixed s := by
  cases h
  case marker => simp only [fixed, setMarker_control, setMarker_port, setMarker_pending]
  case report => simp only [fixed, pushReport_control, pushReport_port, pushReport_pending]
  case flags c n _ => simp only [fixed, raiseFlags_control, raiseFlags_port, kept_pending (kept_raiseFlags c n s)]
  case stop c n _ _ =>
    simp only [fixed, setFaultStop, setMarker_control, setMarker_port, setMarker_pending, raiseFlags_control,
      raiseFlags_port, kept_pending (kept_raiseFlags c n s)]
  case port p timer => simp only [fixed, timer]
  all_goals rfl

theorem does_fixed {s t : State} (h : Does s t) : fixed t = fixed s :=
  does_keep (P := fun t => fixed t = fixed s) (fun u h => (update_fixed u).trans h) h rfl

theorem fixed_hears {s t : State} (h : fixed t = fixed s) : hears t ↔ hears s := by
  have phase : t.control.phase = s.control.phase := congrArg (·.1.phase) h
  simp only [hears, phase]
theorem fixed_servoTimer {s t : State} (h : fixed t = fixed s) : t.port.servoTimer = s.port.servoTimer := congrArg (·.2.1) h

theorem does_hears {s t : State} (h : Does s t) : hears t ↔ hears s := fixed_hears (does_fixed h)

/-! ### Runs -/

/-- Updates are made while the part hears, or by the start-up check. -/
def awake (s : State) : Prop := hears s ∨ s.control.phase = .checkingStore

theorem update_awake {s t : State} (h : Update s t) (up : awake s) : awake t := by
  have phase : t.control.phase = s.control.phase := congrArg (·.1.phase) (update_fixed h)
  rwa [awake, hears, phase]

/-- A run of updates, made while awake, and of turns. -/
abbrev Runs : State → State → Prop := Relation.ReflTransGen fun s t => (awake s ∧ Update s t) ∨ Turn s t

theorem Does.runs {s t : State} (h : Does s t) (up : awake s) : Runs s t := by
  have both : Runs s t ∧ awake t := by
    induction h with
    | refl => exact ⟨.refl, up⟩
    | tail _ last ih => exact ⟨ih.1.tail (.inl ⟨ih.2, last⟩), update_awake last ih.2⟩
  exact both.1

theorem Turn.runs {s t : State} (h : Turn s t) : Runs s t := .single (.inr h)

@[refl] theorem runs_refl (s : State) : Runs s s := .refl

/-- A property that every update and every turn keeps is kept by every run. -/
theorem runs_keep {P : State → Prop} (update : ∀ {s t}, Update s t → P s → P t) (turn : ∀ {s t}, Turn s t → P s → P t)
    {s t : State} (h : Runs s t) (start : P s) : P t := by
  induction h with
  | refl => exact start
  | tail _ last ih => exact last.elim (fun u => update u.2 ih) fun u => turn u ih

/-! ### Frames heard -/

theorem does_endSpent (s : State) : Does s (endSpent s) := does_of_bus rfl id id le_rfl id id

/-- A duplicate-station event in ACTIVE or FAULT_STOP is a raise; else station control turns. -/
theorem duplicateStation_cases (s : State) :
    Does s (duplicateStation s) ∨
      ((s.control.station = .offline ∨ s.control.station = .joining) ∧
        duplicateStation s = setIdentityConflict (endSpent s)) := by
  unfold duplicateStation
  cases station : s.control.station with
  | active => exact .inl ((does_endSpent s).trans (does_raise ..))
  | faultStop => exact .inl ((does_endSpent s).trans (does_raise ..))
  | offline => exact .inr ⟨.inl rfl, rfl⟩
  | joining => exact .inr ⟨.inr rfl, rfl⟩

/-- The command is a duplicate-station event, or a frame that makes one (R155). -/
def duplicates (c : Instr) (s : State) : Prop :=
  c = .duplicateStationEvent ∨ ∃ h, frameHeader c = some h ∧ sourceOf h = s.control.number

/-- A frame heard: one from another station goes to its block, one with the own number is a duplicate-station event. -/
theorem heard_cases (h : Header) (f : State → State) (s : State) :
    (¬hears s ∧ heard h f s = s) ∨ (hears s ∧ sourceOf h = s.control.number ∧ heard h f s = duplicateStation s) ∨
      (hears s ∧ sourceOf h ≠ s.control.number ∧ heard h f s = f (endSpent s)) := by
  by_cases hearing : hears s
  · by_cases own : sourceOf h = s.control.number
    · exact .inr (.inl ⟨hearing, own, heard_own h f s hearing own⟩)
    · exact .inr (.inr ⟨hearing, own, heard_other h f s hearing own⟩)
  · exact .inl ⟨hearing, whenHearing_off _ s hearing⟩

/-! ### The shot store -/

theorem does_startWrite (shot : Byte) (content : Record) (s : State) (inRange : shot.toNat ≤ lastShot) :
    Does s (startWrite shot content s) := by
  refine does_of_store rfl fun h => ⟨h.1, fun w hw => ?_⟩
  obtain rfl := Option.some.inj hw
  exact inRange

theorem does_writeUnlessSame (shot : Byte) (content : Record) (s : State) (inRange : shot.toNat ≤ lastShot) :
    Does s (writeUnlessSame shot content s) := by
  unfold writeUnlessSame
  split
  · exact does_pushReport _ s
  · split
    · exact does_pushReport _ s
    · exact does_startWrite shot content s inRange

theorem does_storeShot (shot : Byte) (body : RecordBody) (s : State) : Does s (storeShot shot body s) := by
  unfold storeShot
  split
  · exact does_pushReport _ s
  · split
    · exact does_pushReport _ s
    · exact does_writeUnlessSame _ _ s (by omega)

theorem does_captureShot (shot : Byte) (label : List Byte) (s : State) : Does s (captureShot shot label s) := by
  unfold captureShot
  split
  · exact does_pushReport _ s
  · split
    · exact does_pushReport _ s
    · split
      · exact does_pushReport _ s
      · exact does_writeUnlessSame _ _ s (by omega)

theorem does_eraseShot (shot : Byte) (s : State) : Does s (eraseShot shot s) := by
  unfold eraseShot
  split
  · exact does_pushReport _ s
  · exact does_writeUnlessSame _ _ s (by omega)

theorem readCursor_remaining (first count : Byte) : (readCursor first count).remaining ≤ 8 := by
  unfold readCursor
  dsimp only
  split <;> omega

theorem does_readShot (first count : Byte) (s : State) : Does s (readShot first count s) :=
  does_of_bus rfl id id le_rfl (fun _ => readCursor_remaining first count) id

theorem does_whileOnBus {f : State → State} (h : ∀ s, Does s (f s)) (s : State) : Does s (whileOnBus f s) := by
  unfold whileOnBus
  split
  · exact h s
  · rfl

theorem does_reportWrite (shot : Nat) (o : StoreOutcome) (s : State) : Does s (reportWrite shot o s) := by
  unfold reportWrite
  split
  · exact does_pushReport _ s
  · rfl

theorem does_readAfresh (shot : Nat) (s : State) : Does s (readAfresh shot s) := by
  unfold readAfresh
  split
  · rfl
  · split
    · exact does_takeUpHead _
    · split
      · rfl
      · split
        · exact does_takeUpSecond _
        · rfl

theorem does_completeWrite (verified : Bool) (s : State) : Does s (completeWrite verified s) := by
  unfold completeWrite
  split
  · rfl
  · rename_i w _
    have written : ∀ area corrupt free, Does s { s with
        store := { s.store with areas := writeArea w.shot area s.store.areas, corrupt := corrupt, write := none }
        free := free } := fun area corrupt free =>
      does_of_store rfl fun h => ⟨writeArea_wf _ _ _ h.1, fun _ hw => nomatch hw⟩
    refine .trans ?_ (does_readAfresh w.shot _)
    split
    · exact (written _ _ s.free).trans (does_reportWrite ..)
    · exact (written _ _ _).trans (does_reportWrite ..)

/-! ### The cue list and the profile generator -/

/-- A test that refuses was not met, and the next one decides. -/
theorem refuses_none_iff {c : Prop} [Decidable c] {r : Reason} {next : Option Reason} :
    (if c then some r else next) = none ↔ ¬c ∧ next = none := by
  by_cases h : c <;> simp [h]

theorem cueRefusal_none {p : CuePayload} {mode : StartMode} {s : State} (h : cueRefusal p mode s = none) :
    (p.tag ∉ s.cues.map CueEntry.tag ∧ s.cues.length < 8 ∧ p.shot.toNat ≤ 127) ∧
      (mode = .group → inPedestalSet p.members s.control.number = true ∧ p.group ≠ 0 ∧
        p.group ∉ s.groups.records.map GroupRecord.group ∧ s.groups.records.length < 4) := by
  simp only [cueRefusal, refuses_none_iff] at h
  obtain ⟨fresh, room, range, groupTests⟩ := h
  refine ⟨⟨by simpa using fresh, Nat.lt_of_not_le room, Nat.le_of_not_lt range⟩, fun group => ?_⟩
  simp only [group, if_true, refuses_none_iff] at groupTests
  obtain ⟨member, unused, places, _⟩ := groupTests
  have member : inPedestalSet p.members s.control.number = true ∧ p.group ≠ 0 := by simpa using member
  exact ⟨member.1, member.2, by simpa [groupRecord] using unused, Nat.lt_of_not_le places⟩

theorem does_addEntry {p : CuePayload} {mode : StartMode} {s : State} (accepted : cueRefusal p mode s = none) :
    Does s (addEntry p mode s) := by
  obtain ⟨⟨fresh, room, _⟩, group⟩ := cueRefusal_none accepted
  have joined : Does s { s with cues := s.cues ++ [newEntry p mode] } :=
    (UpdateBy.newCue (newEntry p mode) s room fresh (Nat.zero_le _)).does
  unfold addEntry
  split
  · rename_i isGroup
    obtain ⟨_, _, unused, places⟩ := group isGroup
    let t : State := { s with cues := s.cues ++ [newEntry p mode] }
    exact joined.trans (UpdateBy.newGroup (newRecord p) t places unused).does
  · exact joined

theorem does_acceptCue (p : CuePayload) (mode : StartMode) (s : State) : Does s (acceptCue p mode s) := by
  unfold acceptCue
  split
  · exact does_pushReport _ s
  · exact (does_addEntry ‹_›).trans (does_refill _ _)

theorem does_takeCue (p : CuePayload) (s : State) : Does s (takeCue p s) := by
  unfold takeCue
  split
  · rfl
  · split
    · exact does_acceptCue _ _ s
    · exact does_pushReport _ s
    · rfl
    · rfl

theorem does_setTake (k : Nat) (s : State) : Does s (setTake k s) := by
  have flagged : Does s (modifyCue k (fun e => { e with take := true }) s) := does_entry k s
  unfold setTake
  dsimp only
  split
  · exact flagged.trans (does_retestHead _)
  · exact flagged

theorem does_takeTake (tag : Byte) (s : State) : Does s (takeTake tag s) := by
  unfold takeTake
  split
  · split
    · exact does_setTake _ s
    · exact does_pushReport _ s
  · rfl

theorem does_takeGroupTake (g : Byte) (s : State) : Does s (takeGroupTake g s) := by
  unfold takeGroupTake
  split
  · split
    · exact does_setTake _ s
    · rfl
  · rfl

theorem does_cancelRunning (s : State) : Does s (cancelRunning s) := by
  unfold cancelRunning
  split
  · rfl
  · exact (does_entry 0 s).trans (does_beginStop _ _)

theorem does_takeCancel (tag : Byte) (s : State) : Does s (takeCancel tag s) := by
  unfold takeCancel
  split
  · split
    · unfold cancelAt
      split
      · exact does_cancelRunning s
      · exact does_leaveAt ..
    · exact does_pushReport _ s
  · rfl

theorem does_takeCancelAll (s : State) : Does s (takeCancelAll s) := by
  unfold takeCancelAll
  split
  · refine .trans (b := if headRunning s then cancelRunning s else s) ?_
      ((does_removeIdle _ _).trans (does_overlapAfter _ _))
    split
    · exact does_cancelRunning s
    · rfl
  · rfl

theorem does_changeHold (b : Bool) (s : State) : Does s (changeHold b s) := by
  unfold changeHold
  split
  · rfl
  · exact .trans (does_profile (t := { s with profile := { s.profile with hold := b } }) rfl rfl)
      ((does_setMarker _).trans (does_retarget _ _))

theorem does_takeHold (s : State) : Does s (takeHold s) := by
  unfold takeHold
  split
  · exact does_changeHold _ s
  · rfl

theorem does_takeResume (s : State) : Does s (takeResume s) := by
  unfold takeResume
  split
  · dsimp only
    split
    · exact (does_changeHold _ s).trans (does_setMotion _ _)
    · exact does_changeHold _ s
  · rfl

/-! ### Drives -/

theorem does_checkFollowing (a : Axis) (v p : Position) (s : State) : Does s (checkFollowing a v p s) := by
  unfold checkFollowing
  split
  · exact does_raise ..
  · rfl

theorem does_replyInExchange (a : Axis) (r : DriveReply) (x : Exchange) (s : State) : Does s (replyInExchange a r x s) := by
  unfold replyInExchange
  split
  · rfl
  · let t : State := { recordReply a r s with
      port := { (recordReply a r s).port with
        exchange := some { x with replies := x.replies.set a (some r.position) } } }
    have recorded : Does s t := does_of_port rfl rfl
    have faulted : ∀ u, Does s u → Does s (if driveStatusOf r.status = .fault then raise .driveFault (.axis a) u else u) := by
      intro u done
      split
      · exact done.trans (does_raise ..)
      · exact done
    refine faulted (if blankingRuns t then t else checkFollowing a r.position (x.paired.get a) t) ?_
    split
    · exact recorded
    · exact recorded.trans (does_checkFollowing ..)

/-- A reply accepted in the start-up position read: it is recorded, and the last one ends the read, which may enter JOINING. -/
theorem replyInRead_cases (a : Axis) (r : DriveReply) (s : State) :
    ∃ t, Does s t ∧
      (replyInRead a r s = t ∨ (let u := { t with control := { t.control with readEnded := true } }
        replyInRead a r s = u ∨ (mayGoOnline u = true ∧ replyInRead a r s = enterJoining u))) := by
  unfold replyInRead
  split
  · exact ⟨s, .refl, .inl rfl⟩
  · let t : State := { recordReply a r s with
      port := { (recordReply a r s).port with
        lastSetpoint := (recordReply a r s).port.lastSetpoint.set a r.position
        answered := (recordReply a r s).port.answered.set a true } }
    refine ⟨t, does_of_port rfl rfl, ?_⟩
    dsimp only
    split
    · unfold endPositionRead
      dsimp only
      split
      · rename_i online
        exact .inr (.inr ⟨(Bool.and_eq_true_iff.mp online).2, rfl⟩)
      · exact .inr (.inl rfl)
    · exact .inl rfl

/-- What a DRIVE_REPLY does: updates, but for the end of the start-up position read. -/
theorem takeReply_cases (r : DriveReply) (s : State) :
    ∃ t, Does s t ∧
      (takeReply r s = t ∨ (let u := { t with control := { t.control with readEnded := true } }
        takeReply r s = u ∨ (mayGoOnline u = true ∧ takeReply r s = enterJoining u))) := by
  unfold takeReply
  split
  · split
    · exact ⟨s, .refl, .inl rfl⟩
    · split
      · exact ⟨_, does_replyInExchange .., .inl rfl⟩
      · split
        · exact ⟨s, .refl, .inl rfl⟩
        · exact replyInRead_cases ..
  · exact ⟨s, .refl, .inl rfl⟩

theorem nextRate_le (s : State) (live : (configOf s).liveRate ≤ 256) (rate : s.profile.rate ≤ 256) : nextRate s ≤ 256 :=
  stepToward_le _ _ _ _ (rateTarget_le s live) rate

theorem does_runPeriod (p : RunningPlan) (s : State) : Does s (runPeriod p s) := by
  have ran : Does s { s with
      profile := { s.profile with rate := nextRate s, time := nextTime p s }
      port := { s.port with lastSetpoint := setpointsAt p (nextTime p s) } } :=
    .trans (does_of_profile (t := { s with profile := { s.profile with rate := nextRate s, time := nextTime p s } }) rfl
      (nextRate_le s)) (does_of_port rfl rfl)
  unfold runPeriod
  dsimp only
  split
  · exact ran.trans (does_setMotion _ _)
  · exact ran

theorem does_endLeg1 (s : State) : Does s (endLeg1 s) :=
  .trans (does_profile (t := { s with profile := { s.profile with leg1Passed := true } }) rfl rfl)
    ((does_restartBlanking _).trans (does_changeClaims _ _))

theorem does_missedReply (x : Exchange) (s : State) (a : Axis) : Does s (missedReply x s a) := by
  unfold missedReply
  split
  · rfl
  · exact .trans (does_of_port (t := { s with port := { s.port with driveStatus := s.port.driveStatus.set a .fault } })
      rfl rfl) (does_raise ..)

theorem does_foldl {α : Type} {f : State → α → State} (h : ∀ s a, Does s (f s a)) (l : List α) (s : State) :
    Does s (l.foldl f s) := by
  induction l generalizing s with
  | nil => rfl
  | cons a l ih => exact (h s a).trans (ih _)

theorem does_closeExchange (s : State) : Does s (closeExchange s) := by
  unfold closeExchange
  split
  · rfl
  · rename_i x _
    exact .trans (does_of_port (t := { s with port := { s.port with exchange := none, closed := some x } }) rfl rfl)
      (does_foldl (does_missedReply x) _ _)

theorem does_openExchange (p : PerAxis Position) (s : State) : Does s (openExchange p s) := does_of_port rfl rfl

theorem does_countBlanking (s : State) : Does s (countBlanking s) := does_of_port rfl rfl

/-- A stop completion: updates, then the return to ACTIVE from a fault stop with no STOP-severity flag left, then the effect
of a RESTART that waits (R169, R182). -/
theorem stopCompletion_cases (s : State) :
    ∃ t u, Does s t ∧
      (u = t ∨ (t.control.station = .faultStop ∧ stopFlagSet t = false ∧ u = returnToActive t)) ∧
      (stopCompletion s = u ∨ stopCompletion s = restartEffect u) := by
  let t := takeUpHead (endStoppedMove s)
  have ended : Does s t := (does_endStoppedMove s).trans (does_takeUpHead _)
  have restarted : ∀ u, (u = t ∨ (t.control.station = .faultStop ∧ stopFlagSet t = false ∧ u = returnToActive t) ∨
      (t.control.station = .faultStop ∧ u = { t with control := { t.control with driveEnable := false } })) →
      (stopCompletion s = u ∨ stopCompletion s = restartEffect u) →
      ∃ t u, Does s t ∧
        (u = t ∨ (t.control.station = .faultStop ∧ stopFlagSet t = false ∧ u = returnToActive t)) ∧
        (stopCompletion s = u ∨ stopCompletion s = restartEffect u) := by
    rintro u (rfl | back | ⟨stopped, rfl⟩) h
    · exact ⟨_, _, ended, .inl rfl, h⟩
    · exact ⟨t, u, ended, .inr back, h⟩
    · exact ⟨_, _, ended.trans (UpdateBy.power false t stopped).does, .inl rfl, h⟩
  refine restarted (if s.control.station = .faultStop then faultStopCompletion t else t) ?_ ?_
  · split
    · rename_i stopped
      have still := does_stopped ended stopped
      unfold faultStopCompletion
      split
      · exact .inr (.inr ⟨still, rfl⟩)
      · exact .inr (.inl ⟨still, by simpa using ‹¬stopFlagSet t = true›, rfl⟩)
    · exact .inl rfl
  · unfold stopCompletion
    dsimp only
    split
    · exact .inr rfl
    · exact .inl rfl

/-- The servo period expiry: updates, in between what a stop completion turns. -/
theorem servoPeriod_cases (s : State) :
    ∃ t u v, Does s t ∧
      (u = t ∨ (t.control.station = .faultStop ∧ stopFlagSet t = false ∧ u = returnToActive t)) ∧
      (v = u ∨ v = restartEffect u) ∧ Does v (servoPeriod s) := by
  have counted := does_countBlanking s
  have closed : ∀ v, Does v (openExchange s.port.lastSetpoint (closeExchange v)) := fun v =>
    (does_closeExchange v).trans (does_openExchange _ _)
  have updates : ∀ v, Does s v → servoPeriod s = openExchange s.port.lastSetpoint (closeExchange v) →
      ∃ t u v, Does s t ∧
        (u = t ∨ (t.control.station = .faultStop ∧ stopFlagSet t = false ∧ u = returnToActive t)) ∧
        (v = u ∨ v = restartEffect u) ∧ Does v (servoPeriod s) := fun v done eq =>
    ⟨v, v, v, done, .inl rfl, .inl rfl, eq ▸ closed v⟩
  cases plan : (countBlanking s).profile.plan with
  | none => exact updates _ counted (by simp only [servoPeriod, plan])
  | some p =>
    by_cases moves : moveExists (countBlanking s) = true
    case neg => exact updates _ counted (by simp only [servoPeriod, plan, if_neg moves])
    case pos =>
      have served : servoPeriod s =
          openExchange s.port.lastSetpoint (closeExchange (movePeriod p (countBlanking s))) := by
        simp only [servoPeriod, plan, if_pos moves]
      let w := countBlanking s
      let t := if reachesLeg1End p w then endLeg1 (runPeriod p w) else runPeriod p w
      have ran : Does s t := by
        refine counted.trans ((does_runPeriod p w).trans ?_)
        simp only [t]
        split
        · exact does_endLeg1 _
        · rfl
      have period : movePeriod p w =
          if stopping w then (if nextRate w = 0 then stopCompletion t else t)
          else if moveEnd p ≤ nextTime p w then takeUpHead (completeMove t) else t := rfl
      split at period
      · split at period
        · obtain ⟨t', u, done, back, after⟩ := stopCompletion_cases t
          rw [← period] at after
          exact ⟨t', u, movePeriod p w, ran.trans done, back, after, served ▸ closed _⟩
        · exact updates t ran (period ▸ served)
      · split at period
        · exact updates _ (ran.trans ((does_completeMove t).trans (does_takeUpHead _))) (period ▸ served)
        · exact updates t ran (period ▸ served)

theorem does_recheckAxis (x : Exchange) (s : State) (a : Axis) : Does s (recheckAxis x s a) := by
  unfold recheckAxis
  split
  · rfl
  · exact does_checkFollowing ..

theorem does_recheckPairs (x : Exchange) (s : State) : Does s (recheckPairs x s) :=
  .trans (does_of_port (t := { s with port := { s.port with blanking := none } }) rfl rfl)
    (does_foldl (does_recheckAxis x) _ _)

theorem does_expireBlanking (s : State) : Does s (expireBlanking s) := by
  unfold expireBlanking
  split
  · rfl
  · split
    · exact (does_recheckPairs _ s).trans (does_of_port rfl rfl)
    · exact does_recheckPairs _ s

/-! ### Group moves -/

theorem does_modifyRecord (g : Byte) {f : GroupRecord → GroupRecord} (s : State)
    (id : ∀ r, (f r).group = r.group := by intro _; rfl) : Does s (modifyRecord g f s) := by
  have ids : (modifyRecord g f s).groups.records.map GroupRecord.group = s.groups.records.map GroupRecord.group := by
    simp only [modifyRecord, List.map_map]
    refine List.map_congr_left fun r _ => ?_
    simp only [Function.comp_apply]
    split
    · exact id r
    · rfl
  exact does_of_groups rfl (ids ▸ List.Sublist.refl _)

theorem does_startEvent (r : GroupRecord) (s : State) : Does s (startEvent r s) := by
  let f : GroupRecord → GroupRecord :=
    fun r => { r with state := .starting, commonN := some (commonN r), commonG := some (commonG r) }
  let t := modifyRecord r.group f s
  let u : State := { t with groups := { t.groups with waitTimer := false, startDelay := some (commonG r) } }
  have begun : Does s u := (does_modifyRecord r.group (f := f) s).trans (does_of_groups rfl (List.Sublist.refl _))
  have event : startEvent r s = match groupIndex r.group u with
      | some k => resplitAtCue k (commonN r) u
      | none => u := rfl
  rw [event]
  split
  · exact begun.trans (does_entry _ _)
  · exact begun

theorem does_recordReadiness (g : Byte) (number n d : Nat) (s : State) : Does s (recordReadiness g number n d s) := by
  have recorded : Does s (modifyRecord g (recordSlot number n d) s) := does_modifyRecord g s
  unfold recordReadiness
  dsimp only
  split
  · split
    · exact recorded.trans (does_startEvent _ _)
    · exact recorded
  · exact recorded

theorem does_takeReady (number : Nat) (p : ReadyPayload) (s : State) : Does s (takeReady number p s) := by
  unfold takeReady
  split
  · rfl
  · split
    · split
      · unfold abandonGroup
        split
        · exact (does_dropReadiness _ s).trans (does_leaveAt ..)
        · rfl
      · exact does_recordReadiness ..
    · rfl

theorem does_expireGroupWait (s : State) : Does s (expireGroupWait s) :=
  .trans (does_of_groups (t := { s with groups := { s.groups with waitTimer := false } }) rfl (List.Sublist.refl _))
    (does_leaveAt ..)

theorem does_endRecord (s : State) : Does s (endRecord s) := by
  unfold endRecord
  split
  · exact does_modifyRecord _ s
  · rfl

theorem does_groupStart (s : State) : Does s (groupStart s) := by
  have started := (does_endRecord s).trans (does_startHead (endRecord s) (.inl rfl))
  unfold groupStart
  split
  · rename_i t ht
    rw [ht] at started
    exact started.trans (does_takeUpHead t)
  · rename_i t ht
    rwa [ht] at started

theorem does_expireStartDelay (s : State) : Does s (expireStartDelay s) := by
  have expired : Does s { s with groups := { s.groups with startDelay := none } } :=
    does_of_groups rfl (List.Sublist.refl _)
  unfold expireStartDelay
  dsimp only
  split
  · exact expired.trans (does_groupStart _)
  · exact expired

/-! ### Claim timers and transmission -/

theorem does_expireSettle (s : State) : Does s (expireSettle s) := by
  unfold expireSettle
  split
  · exact does_of_claims rfl
  · rename_i k _
    let t := modifyCue k (fun e => { e with stage := .claimed }) (stopClaimTimers (setOwn (holdClaims k s.claims.own) s))
    have settled : Does s t := ((does_setOwn _ s).trans (does_stopClaimTimers _)).trans (does_entry k _)
    refine settled.trans (.trans (b := if k = 0 then retestHead t else t) ?_ (does_overlapAll _))
    split
    · exact does_retestHead t
    · rfl

theorem does_expireClaimWait (s : State) : Does s (expireClaimWait s) := by
  unfold expireClaimWait
  split
  · exact does_of_claims rfl
  · exact (does_leaveAt ..).trans (does_setMarker _)

theorem does_startTransmission (idle : Nat) (s : State) : Does s (startTransmission idle s) := by
  unfold startTransmission
  split
  · split
    · rfl
    · split
      · exact does_of_bus rfl (fun h => (Bool.and_eq_true_iff.mp h).1) id le_rfl id id
      · rfl
  · rfl

theorem does_endTransmission (s : State) : Does s (endTransmission s) :=
  does_of_bus rfl id id le_rfl id fun _ => Nat.zero_le _

theorem cursorAfter_remaining (c : ReadCursor) (h : c.remaining ≤ 8) : (cursorAfter c).remaining ≤ 8 := by
  unfold cursorAfter
  split
  · exact Nat.zero_le _
  · exact (Nat.sub_le _ _).trans h

theorem does_readySentOut (r : QueuedReady) (s : State) : Does s (readySentOut r s) := by
  have left : Does s { s with bus := { s.bus with readyFifo := s.bus.readyFifo.tail } } :=
    does_readyFifo rfl fun h => by simp only [List.length_tail]; omega
  unfold readySentOut
  dsimp only
  split
  · exact left
  · split
    · exact left
    · split
      · split
        · exact left.trans (does_recordReadiness ..)
        · exact left
      · exact left

theorem does_stateSentOut (p : StateFrame) (x : Transmission) (s : State) : Does s (stateSentOut p x s) := by
  refine .trans (does_of_bus (t := { s with
    bus := { s.bus with
      heartbeat := true
      reportsLost := s.bus.reportsLost && !(p.reportsLost && !x.reportDiscarded) } }) rfl id id le_rfl id id) ?_
  unfold stateSentOut startSettle
  split
  · exact does_of_claims rfl
  · rfl

theorem does_completeTransmission (s : State) : Does s (completeTransmission s) := by
  have ended := does_endTransmission s
  unfold completeTransmission
  split
  · rfl
  · dsimp only
    split
    · exact ended.trans (does_readySentOut _ _)
    · exact ended.trans (does_stateSentOut _ _ _)
    · exact ended.trans (does_of_bus rfl id id (by simp only [List.length_tail]; omega) id id)
    · split
      · exact ended
      · exact ended.trans (does_of_bus rfl id id le_rfl (cursorAfter_remaining _) id)

theorem does_countAbandon (s : State) : Does s (countAbandon s) := by
  unfold countAbandon contentionCount
  split
  · exact does_of_bus rfl id id le_rfl id fun _ => by dsimp only; omega
  · exact .trans (does_of_bus (t := { s with bus := { s.bus with abandonCount := 0 } }) rfl id id le_rfl id
      fun _ => Nat.zero_le _) (does_raise ..)

theorem does_keepAbandoned (f : OutFrame) (s : State) : Does s (keepAbandoned f s) := by
  unfold keepAbandoned
  split
  · exact does_setMarker s
  · split
    · exact does_readyFifo rfl fun h => by simp only [List.length_tail]; omega
    · rfl
  · rfl

theorem does_abandonTransmission (s : State) : Does s (abandonTransmission s) := by
  unfold abandonTransmission
  split
  · rfl
  · exact .trans (does_of_bus (t := { s with bus := { s.bus with transmission := none, driverEnable := false } })
      rfl id id le_rfl id id) ((does_keepAbandoned _ _).trans (does_countAbandon _))

theorem does_expireHeartbeat (s : State) : Does s (expireHeartbeat s) :=
  .trans (does_of_bus (t := { s with bus := { s.bus with heartbeat := false } }) rfl id id le_rfl id id)
    (does_setMarker _)

/-! ### Tally and peers -/

theorem does_setView (onAir : Bool) (s : State) : Does s (setView onAir s) := by
  unfold setView
  split
  · rfl
  · exact .trans (does_of_tally (t := { s with tally := { s.tally with onAir := onAir } }) rfl)
      ((does_setMarker _).trans ((does_retarget _ _).trans (does_retestHead _)))

theorem does_takeTally (program : BitVec 16) (s : State) : Does s (takeTally program s) :=
  .trans (does_of_tally (t := { s with tally := { s.tally with status := .current, timer := true } }) rfl)
    (does_setView _ _)

theorem does_loseTally (s : State) : Does s (loseTally s) :=
  .trans (does_of_tally (t := { s with tally := { s.tally with status := .lost, timer := false } }) rfl)
    ((does_setView _ _).trans (does_raise ..))

theorem does_loseClaim (k : Nat) (s : State) : Does s (loseClaim k s) := by
  let f : CueEntry → CueEntry := fun e =>
    { e with retry := min 15 (e.retry + 1), plan := e.plan.map fun p => { p with chosen := none }, stage := .routing }
  let t := modifyCue k f (setOwn (s.claims.own.filter fun o => !ownedAt k o) s)
  have lost : Does s t := (does_setOwn _ s).trans
    (does_modifyCue k f _ (fun _ => rfl) fun e => .inl (Nat.min_le_left 15 (e.retry + 1)))
  have stopped : Does t { t with claims := { t.claims with settleTimer := false } } := does_of_claims rfl
  exact lost.trans (stopped.trans ((does_setMarker _).trans (does_routeTest k _)))

theorem does_testClaiming (claims : List Claim) (number : Nat) (s : State) : Does s (testClaiming claims number s) := by
  unfold testClaiming
  split
  · rfl
  · split
    · rfl
    · split
      · exact does_loseClaim _ s
      · rfl

theorem does_takeState {number : Nat} {claims : List Claim} {s : State} (hearing : hears s)
    (pedestal : isPedestal number = true) (own : isPedestal s.control.number = true) (other : number ≠ s.control.number)
    (few : claims.length ≤ 4) : Does s (takeState number claims s) :=
  .trans (does_of_peers (t := { s with peers := insertPeer ⟨number, .live, claims⟩ s.peers }) rfl
      (peersRight_insertPeer rfl rfl hearing pedestal own other few))
    ((does_testClaiming _ _ _).trans ((does_retestRoutes _).trans (does_overlapTest _ _)))

theorem markLost_number (n : Nat) (l : List PeerEntry) : (markLost n l).map PeerEntry.number = l.map PeerEntry.number := by
  simp only [markLost, List.map_map]
  refine List.map_congr_left fun p _ => ?_
  simp only [Function.comp_apply]
  split <;> rfl

theorem does_losePeer (n : Nat) (s : State) : Does s (losePeer n s) := by
  refine .trans (does_of_peers (t := { s with peers := markLost n s.peers }) rfl (peersRight_of_sublist rfl ?_ ?_))
    ((does_raise ..).trans (does_retestRoutes _))
  · exact markLost_number n s.peers ▸ List.Sublist.refl _
  · intro p hp
    obtain ⟨q, hq, rfl⟩ := List.mem_map.mp hp
    exact ⟨q, hq, by split <;> exact ⟨rfl, rfl⟩⟩

theorem does_forgetPeer (n : Nat) (s : State) : Does s (forgetPeer n s) := by
  unfold forgetPeer
  split
  · refine .trans (does_of_peers (t := { s with peers := s.peers.filter fun p => p.number != n }) rfl
      (peersRight_of_sublist rfl (List.filter_sublist.map _) fun p hp => ⟨p, List.mem_of_mem_filter hp, rfl, rfl⟩))
      ((does_setOverlap _ _).trans (does_retestRoutes _))
  · rfl

/-! ### Station control -/

theorem clearFlags_cases (classes : BitVec 16) (s : State) :
    ∃ t, t = clearFlags classes s ∧ (takeClearFaults classes s = t ∨
      (t.control.station = .faultStop ∧ stopFlagSet t = false ∧ takeClearFaults classes s = returnToActive t)) := by
  refine ⟨_, rfl, ?_⟩
  unfold takeClearFaults
  dsimp only
  split
  · rename_i free
    exact .inr ⟨free.1, free.2.1, rfl⟩
  · exact .inl rfl

/-- RESTART: its effect at once, or updates. -/
theorem takeRestart_cases (s : State) :
    Does s (takeRestart s) ∨ (s.control.station ≠ .offline ∧ takeRestart s = restartEffect s) := by
  unfold takeRestart
  split
  · exact .inl .refl
  · rename_i online
    split
    · exact .inr ⟨online, rfl⟩
    · exact .inl (UpdateBy.restart true s rfl).does
    · exact .inl (((does_setHeadEnding _ s).trans (does_beginStop _ _)).trans (UpdateBy.restart true _ rfl).does)

/-- Entry to ACTIVE, and, with a STOP-severity flag set, on to FAULT_STOP (R168, R180). -/
theorem enterActive_cases (s : State) :
    ∃ t, Does { s with control := { s.control with station := .active, joinTimer := false } } t ∧
      ((enterActive s = t ∧ (t.control.station = .active → stopFlagSet t = false)) ∨
        (t.control.station = .active ∧ stopFlagSet t = true ∧ enterActive s = enterFaultStop t)) := by
  let a : State := setMarker { s with control := { s.control with station := .active, joinTimer := false } }
  let b := overlapAll (setOwn [parkedClaim a] a)
  refine ⟨{ b with bus := { b.bus with heartbeat := true } }, ?_, ?_⟩
  · exact (does_setMarker _).trans ((does_setOwn _ _).trans ((does_overlapAll _).trans
      (does_of_bus rfl id id le_rfl id id)))
  · unfold enterActive
    dsimp only
    split
    · rename_i stops
      exact .inr ⟨stops.1, stops.2, rfl⟩
    · rename_i stays
      refine .inl ⟨rfl, fun active => ?_⟩
      simpa using fun set => stays ⟨active, set⟩

/-! ### Every command -/

/-- A command that is a frame of the cue station: it is not taken, or it is handed to its block. -/
theorem heardFromCue_cases (h : Header) (f : State → State) (s : State) :
    (heardFromCue h f s = s ∧ ¬hears s) ∨
      (hears s ∧ sourceOf h = s.control.number ∧ heardFromCue h f s = duplicateStation s) ∨
      (hears s ∧ heardFromCue h f s = endSpent s) ∨ (takenFromCue h s ∧ heardFromCue h f s = f (endSpent s)) := by
  rcases heard_cases h (fromCueStation h f) s with ⟨deaf, eq⟩ | ⟨hearing, own, eq⟩ | ⟨hearing, other, eq⟩
  · exact .inl ⟨eq, deaf⟩
  · exact .inr (.inl ⟨hearing, own, eq⟩)
  · by_cases taken : sourceOf h = cueStation ∧ addressed h s = true
    · exact .inr (.inr (.inr ⟨⟨hearing, other, taken⟩, by
        rw [heardFromCue, eq, fromCueStation, if_pos (show _ ∧ addressed h (endSpent s) = true from taken)]⟩))
    · exact .inr (.inr (.inl ⟨hearing, by
        rw [heardFromCue, eq, fromCueStation, if_neg (show ¬(_ ∧ addressed h (endSpent s) = true) from taken)]⟩))

/-- What a command other than those of supply, reset and the start sequence can make of the machine: updates; or a turn of
station control, with the updates that go with it. -/
inductive Effect (c : Instr) (s : State) : State → Prop
  | updates {t : State} (h : Does s t) : Effect c s t
  | conflict (hearing : hears s) (off : s.control.station = .offline ∨ s.control.station = .joining)
      (duplicate : duplicates c s) : Effect c s (setIdentityConflict (endSpent s))
  | readEnd {u : State} (h : Does s u) (answer : ∃ r, c = .driveReply r) :
      Effect c s { u with control := { u.control with readEnded := true } }
  | joinAfterRead {u : State} (hearing : hears s) (h : Does s u) (answer : ∃ r, c = .driveReply r)
      (may : mayGoOnline { u with control := { u.control with readEnded := true } } = true) :
      Effect c s (enterJoining { u with control := { u.control with readEnded := true } })
  | join (hearing : hears s) (online : ∃ h, c = .online h) (may : mayGoOnline s = true) :
      Effect c s (enterJoining (endSpent s))
  | activate {t u : State} (hearing : hears s) (timer : s.control.joinTimer = true) (expiry : c = .joinTimerExpiry)
      (h : Does { s with control := { s.control with station := .active, joinTimer := false } } t)
      (ends : (u = t ∧ (t.control.station = .active → stopFlagSet t = false)) ∨
        (t.control.station = .active ∧ stopFlagSet t = true ∧ u = enterFaultStop t)) : Effect c s u
  | clear {u : State} (hearing : hears s) (w : BitVec 16) (clears : ∃ h, c = .clearFaults h w)
      (ends : u = clearFlags w (endSpent s) ∨ ((clearFlags w (endSpent s)).control.station = .faultStop ∧
        stopFlagSet (clearFlags w (endSpent s)) = false ∧ u = returnToActive (clearFlags w (endSpent s)))) : Effect c s u
  | restart (hearing : hears s) (asked : ∃ h, c = .restart h) (online : s.control.station ≠ .offline) :
      Effect c s (restartEffect (endSpent s))
  | period {t u v w : State} (hearing : hears s) (timer : s.port.servoTimer = true) (expiry : c = .servoPeriodExpiry)
      (before : Does s t)
      (back : u = t ∨ (t.control.station = .faultStop ∧ stopFlagSet t = false ∧ u = returnToActive t))
      (restarts : v = u ∨ v = restartEffect u) (after : Does v w) : Effect c s w

/-- The commands of supply, reset and the start sequence. -/
def isStartCommand : Instr → Bool
  | .powerOn => true
  | .pinReset => true
  | .resetAsserted => true
  | .powerLoss => true
  | .configTransferAbandon => true
  | .configurationCheck _ _ => true
  | .startUpCheck => true
  | _ => false

/-- A frame heard whose block makes updates. -/
theorem effect_heard {c : Instr} {h : Header} {f : State → State} {s : State} (frame : frameHeader c = some h)
    (block : hears s → sourceOf h ≠ s.control.number → Does (endSpent s) (f (endSpent s))) :
    Effect c s (heard h f s) := by
  rcases heard_cases h f s with ⟨_, eq⟩ | ⟨hearing, own, eq⟩ | ⟨hearing, other, eq⟩ <;> rw [eq]
  · exact .updates .refl
  · rcases duplicateStation_cases s with done | ⟨off, eq⟩
    · exact .updates done
    · exact eq ▸ .conflict hearing off (.inr ⟨h, frame, own⟩)
  · exact .updates ((does_endSpent s).trans (block hearing other))

/-- A frame of a cue-station kind heard: what its block makes of it decides. -/
theorem effect_heardFromCue {c : Instr} {h : Header} {f : State → State} {s : State} (frame : frameHeader c = some h)
    (block : takenFromCue h s → Effect c s (f (endSpent s))) : Effect c s (heardFromCue h f s) := by
  rcases heardFromCue_cases h f s with ⟨eq, _⟩ | ⟨hearing, own, eq⟩ | ⟨_, eq⟩ | ⟨taken, eq⟩ <;> rw [eq]
  · exact .updates .refl
  · rcases duplicateStation_cases s with done | ⟨off, eq⟩
    · exact .updates done
    · exact eq ▸ .conflict hearing off (.inr ⟨h, frame, own⟩)
  · exact .updates (does_endSpent s)
  · exact block taken

/-- A frame of a cue-station kind whose block makes updates. -/
theorem effect_request {c : Instr} {h : Header} {f : State → State} {s : State} (frame : frameHeader c = some h)
    (block : ∀ s, Does s (f s)) : Effect c s (heardFromCue h f s) :=
  effect_heardFromCue frame fun _ => .updates ((does_endSpent s).trans (block _))

/-- An event that makes updates while the part hears. -/
theorem effect_event {c : Instr} {f : State → State} {s : State} (block : ∀ s, Does s (f s)) :
    Effect c s (whenHearing f s) := by
  unfold whenHearing
  split
  · exact .updates (block s)
  · exact .updates .refl

/-- A timer's expiry: nothing when the timer does not run. -/
theorem does_expiry {test : State → Bool} {f : State → State} (block : ∀ s, Does s (f s)) (s : State) :
    Does s (if test s then f s else s) := by
  split
  · exact block s
  · rfl

/-- What every command but those of supply, reset and the start sequence makes of the machine. -/
theorem exec_effect {c : Instr} {s t : State} (run : exec c s = .next t) (plain : isStartCommand c = false) :
    Effect c s t := by
  cases c <;> simp only [isStartCommand, Bool.true_eq_false] at plain <;>
    (obtain rfl := Host.Outcome.next.inj run; clear plain run)
  case positionReadInterval =>
    refine effect_event fun s => ?_
    split
    · rfl
    · exact does_of_port rfl rfl
  case driveReply r =>
    unfold whenHearing
    split
    case isFalse => exact .updates .refl
    case isTrue hearing =>
      obtain ⟨u, done, eq | eq | ⟨may, eq⟩⟩ := takeReply_cases r s <;> rw [eq]
      · exact .updates done
      · exact .readEnd done ⟨r, rfl⟩
      · exact .joinAfterRead hearing done ⟨r, rfl⟩ may
  case servoPeriodExpiry =>
    unfold whenHearing
    split
    case isFalse => exact .updates .refl
    case isTrue hearing =>
      dsimp only
      split
      case isFalse => exact .updates .refl
      case isTrue timer =>
        obtain ⟨t, u, v, before, back, restarts, after⟩ := servoPeriod_cases s
        exact .period hearing timer rfl before back restarts after
  case blankingWindowExpiry => exact effect_event does_expireBlanking
  case frameDiscarded => exact .updates .refl
  case duplicateStationEvent =>
    unfold whenHearing
    split
    case isFalse => exact .updates .refl
    case isTrue hearing =>
      rcases duplicateStation_cases s with done | ⟨off, eq⟩
      · exact .updates done
      · exact eq ▸ .conflict hearing off (.inl rfl)
  case frameHeardNotTaken h => exact effect_heard rfl fun _ _ => .refl
  case cue h p => exact effect_request rfl (does_takeCue p)
  case take h tag => exact effect_request rfl (does_takeTake tag)
  case groupTake h g => exact effect_request rfl (does_takeGroupTake g)
  case cancel h tag => exact effect_request rfl (does_takeCancel tag)
  case cancelAll h => exact effect_request rfl does_takeCancelAll
  case hold h => exact effect_request rfl does_takeHold
  case resume h => exact effect_request rfl does_takeResume
  case storeShot h shot body => exact effect_request rfl (does_whileOnBus (does_storeShot shot body))
  case captureShot h shot label => exact effect_request rfl (does_whileOnBus (does_captureShot shot label))
  case eraseShot h shot => exact effect_request rfl (does_whileOnBus (does_eraseShot shot))
  case readShot h first count => exact effect_request rfl (does_whileOnBus (does_readShot first count))
  case writeCompletion verified => exact effect_event (does_completeWrite verified)
  case clearFaults h w =>
    refine effect_heardFromCue rfl fun taken => .clear taken.1 w ⟨h, rfl⟩ ?_
    obtain ⟨_, rfl, ends⟩ := clearFlags_cases w (endSpent s)
    exact ends
  case forgetPeer h n => exact effect_request rfl (does_forgetPeer n.toNat)
  case online h =>
    refine effect_heardFromCue rfl fun taken => ?_
    rw [mayGoOnline_endSpent]
    split
    · exact .join taken.1 ⟨h, rfl⟩ ‹_›
    · exact .updates (does_endSpent s)
  case restart h =>
    refine effect_heardFromCue rfl fun taken => ?_
    rcases takeRestart_cases (endSpent s) with done | ⟨online, eq⟩
    · exact .updates ((does_endSpent s).trans done)
    · exact eq ▸ .restart taken.1 ⟨h, rfl⟩ online
  case tally h w =>
    refine effect_heard rfl fun _ _ => ?_
    split
    · exact does_takeTally w _
    · rfl
  case stateFrame h p =>
    refine effect_heard rfl fun hearing other => ?_
    split
    · rename_i pedestals
      obtain ⟨source, own⟩ := Bool.and_eq_true_iff.mp pedestals
      exact does_takeState hearing source own other (payloadClaims_length p)
    · rfl
  case ready h p => exact effect_heard rfl fun _ _ => does_takeReady _ p _
  case transmissionStart idle => exact effect_event (does_startTransmission idle)
  case transmissionCompletion => exact effect_event does_completeTransmission
  case abandon => exact effect_event does_abandonTransmission
  case spentIdleExpiry => exact effect_event does_endSpent
  case settleExpiry => exact effect_event (does_expiry does_expireSettle)
  case claimWaitExpiry => exact effect_event (does_expiry does_expireClaimWait)
  case groupWaitExpiry => exact effect_event (does_expiry does_expireGroupWait)
  case startDelayExpiry => exact effect_event (does_expiry does_expireStartDelay)
  case tallyAgeExpiry => exact effect_event (does_expiry does_loseTally)
  case peerAgeExpiry n => exact effect_event (does_expiry (does_losePeer n))
  case heartbeatExpiry => exact effect_event (does_expiry does_expireHeartbeat)
  case joinTimerExpiry =>
    unfold whenHearing
    split
    case isFalse => exact .updates .refl
    case isTrue hearing =>
      dsimp only
      split
      case isFalse => exact .updates .refl
      case isTrue timer =>
        obtain ⟨t, done, ends⟩ := enterActive_cases s
        exact .activate hearing timer rfl done ends

end Sys2Proof.Machine
end

section
/-! The invariants of every step (`Safety.lean`): each is kept by every elementary update and by every turn of station control,
supply and reset, and so by every command. -/
namespace Sys2Proof.Machine

/-! ### The shared updates in closed form -/

/-- Setting the STATE marker, as one record update. -/
theorem setMarker_eq (s : State) :
    setMarker s = { s with bus := { s.bus with stateMarker := s.bus.stateMarker || onBus s } } := by
  unfold setMarker
  split <;> rename_i h <;> simp [h]

/-- The bus interface after a report has been placed (R146, R147). -/
def busAfterReport (r : Report) (b : BusInterface) : BusInterface :=
  if b.reportFifo.length < 8 then { b with reportFifo := b.reportFifo ++ [r] }
  else { b with reportsLost := true, transmission := b.transmission.map fun t => { t with reportDiscarded := true } }

/-- Placing a report, as one record update. -/
theorem pushReport_eq (r : Report) (s : State) : pushReport r s = { s with bus := busAfterReport r s.bus } := by
  unfold pushReport busAfterReport reportCapacity
  split <;> rfl

@[simp] theorem busAfterReport_readyFifo (r : Report) (b : BusInterface) :
    (busAfterReport r b).readyFifo = b.readyFifo := by unfold busAfterReport; split <;> rfl
@[simp] theorem busAfterReport_stateMarker (r : Report) (b : BusInterface) :
    (busAfterReport r b).stateMarker = b.stateMarker := by unfold busAfterReport; split <;> rfl
@[simp] theorem busAfterReport_cursor (r : Report) (b : BusInterface) :
    (busAfterReport r b).cursor = b.cursor := by unfold busAfterReport; split <;> rfl
@[simp] theorem busAfterReport_heartbeat (r : Report) (b : BusInterface) :
    (busAfterReport r b).heartbeat = b.heartbeat := by unfold busAfterReport; split <;> rfl
@[simp] theorem busAfterReport_spent (r : Report) (b : BusInterface) :
    (busAfterReport r b).spent = b.spent := by unfold busAfterReport; split <;> rfl
@[simp] theorem busAfterReport_abandonCount (r : Report) (b : BusInterface) :
    (busAfterReport r b).abandonCount = b.abandonCount := by unfold busAfterReport; split <;> rfl
@[simp] theorem busAfterReport_driverEnable (r : Report) (b : BusInterface) :
    (busAfterReport r b).driverEnable = b.driverEnable := by unfold busAfterReport; split <;> rfl
theorem busAfterReport_reportFifo (r : Report) (b : BusInterface) :
    (busAfterReport r b).reportFifo = if b.reportFifo.length < 8 then b.reportFifo ++ [r] else b.reportFifo := by
  unfold busAfterReport; split <;> rfl

theorem busAfterReport_capacity (r : Report) (b : BusInterface) (h : b.reportFifo.length ≤ 8) :
    (busAfterReport r b).reportFifo.length ≤ 8 := by
  rw [busAfterReport_reportFifo]
  split
  · rw [List.length_append]
    exact ‹b.reportFifo.length < 8›
  · exact h

/-- Placing a report changes neither set of a transmission's frame. -/
theorem busAfterReport_transmission (r : Report) (b : BusInterface) :
    (busAfterReport r b).transmission.map Transmission.frame = b.transmission.map Transmission.frame := by
  unfold busAfterReport
  split
  · rfl
  · cases b.transmission <;> rfl

/-- The bus interface after a raise's flags: the STATE marker when a flag changed, the report when the class was clear and
unmasked (R163, R164, R165). -/
def busAfterRaise (c : FaultClass) (n : FaultName) (s : State) : BusInterface :=
  let b := { s.bus with
    stateMarker := s.bus.stateMarker || (onBus s && decide (flagsAfterRaise (s.faults.get c) ≠ s.faults.get c)) }
  if (s.faults.get c).sticky || (settingOf s c).masked then b else busAfterReport (.fault c n) b

/-- Raising the flags of a class, as one record update. -/
theorem raiseFlags_eq (c : FaultClass) (n : FaultName) (s : State) :
    raiseFlags c n s =
      { s with bus := busAfterRaise c n s, faults := s.faults.set c (flagsAfterRaise (s.faults.get c)) } := by
  unfold raiseFlags busAfterRaise
  by_cases same : flagsAfterRaise (s.faults.get c) = s.faults.get c
  · simp only [same, if_true, set_get_same, pushReport_eq]
    split <;> simp
  · have marks : (onBus s && decide (flagsAfterRaise (s.faults.get c) ≠ s.faults.get c)) = onBus s := by simp [same]
    simp only [same, if_false, setMarker_eq, pushReport_eq, marks]
    split <;> rfl

@[simp] theorem busAfterRaise_readyFifo (c : FaultClass) (n : FaultName) (s : State) :
    (busAfterRaise c n s).readyFifo = s.bus.readyFifo := by unfold busAfterRaise; dsimp only; split <;> simp
@[simp] theorem busAfterRaise_cursor (c : FaultClass) (n : FaultName) (s : State) :
    (busAfterRaise c n s).cursor = s.bus.cursor := by unfold busAfterRaise; dsimp only; split <;> simp
@[simp] theorem busAfterRaise_abandonCount (c : FaultClass) (n : FaultName) (s : State) :
    (busAfterRaise c n s).abandonCount = s.bus.abandonCount := by unfold busAfterRaise; dsimp only; split <;> simp
@[simp] theorem busAfterRaise_spent (c : FaultClass) (n : FaultName) (s : State) :
    (busAfterRaise c n s).spent = s.bus.spent := by unfold busAfterRaise; dsimp only; split <;> simp
@[simp] theorem busAfterRaise_heartbeat (c : FaultClass) (n : FaultName) (s : State) :
    (busAfterRaise c n s).heartbeat = s.bus.heartbeat := by unfold busAfterRaise; dsimp only; split <;> simp
@[simp] theorem busAfterRaise_driverEnable (c : FaultClass) (n : FaultName) (s : State) :
    (busAfterRaise c n s).driverEnable = s.bus.driverEnable := by unfold busAfterRaise; dsimp only; split <;> simp
theorem busAfterRaise_stateMarker (c : FaultClass) (n : FaultName) (s : State) :
    (busAfterRaise c n s).stateMarker =
      (s.bus.stateMarker || (onBus s && decide (flagsAfterRaise (s.faults.get c) ≠ s.faults.get c))) := by
  unfold busAfterRaise; dsimp only; split <;> simp
theorem busAfterRaise_transmission (c : FaultClass) (n : FaultName) (s : State) :
    (busAfterRaise c n s).transmission.map Transmission.frame = s.bus.transmission.map Transmission.frame := by
  unfold busAfterRaise; dsimp only; split
  · rfl
  · exact busAfterReport_transmission _ _

theorem busAfterRaise_capacity (c : FaultClass) (n : FaultName) (s : State) (h : s.bus.reportFifo.length ≤ 8) :
    (busAfterRaise c n s).reportFifo.length ≤ 8 := by
  unfold busAfterRaise
  dsimp only
  split
  · exact h
  · exact busAfterReport_capacity _ _ h

/-- The station enters FAULT_STOP, as one record update. -/
theorem setFaultStop_eq (s : State) :
    setFaultStop s = { s with
      control := { s.control with station := .faultStop, faultPin := true }
      bus := { s.bus with stateMarker := true } } := by
  unfold setFaultStop
  rw [setMarker_eq]
  simp [onBus]

/-- The station returns to ACTIVE, as one record update. -/
theorem returnToActive_eq (s : State) :
    returnToActive s = { s with
      control := { s.control with station := .active, faultPin := false, driveEnable := true }
      bus := { s.bus with stateMarker := true } } := by
  unfold returnToActive
  rw [setMarker_eq]
  simp [onBus]

/-- A cut-off write changes the areas, the marker of the write and the counter of free values. -/
theorem cutWrite_only (s : State) :
    cutWrite s = { s with
      store := { s.store with areas := (cutWrite s).store.areas, write := none }, free := (cutWrite s).free } := by
  cases write : s.store.write with
  | none =>
    have same : cutWrite s = s := by simp only [cutWrite, write]
    rw [same, ← write]
  | some w => simp only [cutWrite, write]

theorem haltPart_eq (p : Phase) (s : State) :
    haltPart p s = { s with
      store := { s.store with areas := (cutWrite s).store.areas, write := none }
      free := (cutWrite s).free
      control := { s.control with
        phase := p, joinTimer := false, restartPending := false, driveEnable := false, onlinePin := false,
        faultPin := false, configBadPin := false, idConflictPin := false }
      port := { s.port with exchange := none, closed := none, servoTimer := false, blanking := none, requests := [] }
      bus := { s.bus with transmission := none, driverEnable := false, heartbeat := false, spent := false }
      tally := { s.tally with timer := false }
      claims := { s.claims with settleTimer := false, claimWaitTimer := false }
      groups := { s.groups with waitTimer := false, startDelay := none }
      profile := { s.profile with motion := .idle, plan := none, time := 0, stopKind := none, leg1Passed := false } } := by
  unfold haltPart
  rw [cutWrite_only]

theorem cutWrite_sound (s : State) (h : storeSound s) : Areas.wf (cutWrite s).store.areas = true := by
  unfold cutWrite
  split
  · exact h.1
  · exact writeArea_wf _ _ _ h.1

/-! ### Every command is a run -/

theorem effect_runs {c : Instr} {s t : State} (h : Effect c s t) (hearing : hears s) : Runs s t := by
  have up : ∀ {u : State}, Does s u → awake u := fun done => .inl ((does_hears done).mpr hearing)
  have spent : Runs s (endSpent s) := (does_endSpent s).runs (.inl hearing)
  have back : ∀ {t u : State}, hears t → (u = t ∨ (t.control.station = .faultStop ∧ stopFlagSet t = false ∧
      u = returnToActive t)) → Runs t u := by
    rintro t u hearing (rfl | ⟨stopped, _, rfl⟩)
    · rfl
    · exact (Turn.release t hearing stopped).runs
  cases h with
  | updates done => exact done.runs (.inl hearing)
  | conflict hearing off => exact spent.trans (Turn.conflict (endSpent s) hearing off).runs
  | readEnd done => exact (done.runs (.inl hearing)).trans (Turn.readEnd _).runs
  | @joinAfterRead u hearing done _ may =>
    let ended : State := { u with control := { u.control with readEnded := true } }
    exact (done.runs (.inl hearing)).trans ((Turn.readEnd _).runs.trans (Turn.join ended ((does_hears done).mpr hearing) may).runs)
  | join hearing _ may => exact spent.trans (Turn.join (endSpent s) hearing may).runs
  | activate hearing timer _ done ends =>
    refine (Turn.activate s hearing timer).runs.trans ((done.runs (.inl hearing)).trans ?_)
    rcases ends with ⟨rfl, _⟩ | ⟨active, _, rfl⟩
    · rfl
    · have hears := (does_hears done).mpr hearing
      exact (Turn.stop _ hears active).runs.trans ((show Does _ _ from does_enterFaultStop _).runs (.inl (by simpa [setFaultStop_eq] using hears)))
  | clear hearing w _ ends =>
    refine spent.trans ((Turn.clear w _).runs.trans ?_)
    have hears : hears (clearFlags w (endSpent s)) := by
      unfold clearFlags
      dsimp only
      split
      · exact hearing
      · simpa [hears] using hearing
    rcases ends with rfl | ⟨stopped, _, rfl⟩
    · rfl
    · exact (Turn.release _ hears stopped).runs
  | restart hearing _ online => exact spent.trans (Turn.restart (endSpent s) hearing (.inl online)).runs
  | @period t u v _ hearing timer _ before returned restarts after =>
    have hearsT : hears t := (does_hears before).mpr hearing
    have toU := back hearsT returned
    refine (before.runs (.inl hearing)).trans (toU.trans ?_)
    have kept : hears u ∧ u.port.servoTimer = true := by
      have timerT : t.port.servoTimer = true := (fixed_servoTimer (does_fixed before)).trans timer
      rcases returned with rfl | ⟨_, _, rfl⟩
      · exact ⟨hearsT, timerT⟩
      · exact ⟨by simpa [hears, returnToActive_eq] using hearsT, by simpa [returnToActive_eq] using timerT⟩
    rcases restarts with rfl | rfl
    · exact after.runs (.inl kept.1)
    · exact (Turn.restart _ kept.1 (.inr kept.2)).runs.trans (after.runs (.inl kept.1))

theorem setResetPin_same (s : State) : setResetPin s.control.resetPin s = s := rfl

/-- A check with no image read fails (R176). -/
theorem checkConfiguration_unread (n : Nat) : checkConfiguration n [] = none := by
  simp [checkConfiguration, imageLength]

/-- The failing records marked and raised (R29). -/
def checkedStore (s : State) : State :=
  raiseCorrupt (failingRecords s.store.areas) { s with store := { s.store with corrupt := failingRecords s.store.areas } }

theorem does_checkedStore (s : State) : Does s (checkedStore s) :=
  .trans (does_of_store (t := { s with store := { s.store with corrupt := failingRecords s.store.areas } }) rfl id)
    (does_foldl (fun s _ => does_raise _ _ s) _ _)

/-- The tally age timer and the start-up position read begin (R132, R9). -/
theorem does_beginHearing (s : State) :
    Does s { s with tally := { s.tally with timer := true }, port := { s.port with requests := requestAll .read } } :=
  .trans (does_of_tally (t := { s with tally := { s.tally with timer := true } }) rfl) (does_of_port rfl rfl)

theorem startCommand_runs {c : Instr} {s t : State} (run : exec c s = .next t) (start : isStartCommand c = true) :
    Runs s t := by
  cases c <;> simp only [isStartCommand, Bool.false_eq_true] at start <;>
    (obtain rfl := Host.Outcome.next.inj run; clear start run)
  case powerOn =>
    split
    case isTrue held =>
      have turn := Turn.halt .heldInReset true s (.inr ⟨rfl, rfl⟩)
      rw [← held, setResetPin_same] at turn
      exact turn.runs
    case isFalse => exact (Turn.start s).runs
  case pinReset =>
    split
    case isTrue off => exact (Turn.pin false s off).runs
    case isFalse => exact (Turn.start s).runs
  case resetAsserted =>
    split
    case isTrue off => exact (Turn.pin true s off).runs
    case isFalse => exact (Turn.halt .heldInReset true s (.inr ⟨rfl, rfl⟩)).runs
  case powerLoss => exact (Turn.halt .unpowered s.control.resetPin s (.inl rfl)).runs
  case configTransferAbandon =>
    split
    case isTrue => exact (Turn.transfer _ s).runs
    case isFalse => rfl
  case configurationCheck straps image =>
    split
    case isTrue reading => exact (Turn.configured straps (imageRead s image) s reading).runs
    case isFalse => rfl
  case startUpCheck =>
    split
    case isTrue checking =>
      have raised := does_checkedStore s
      have checks : (checkedStore s).control.phase = .checkingStore :=
        (congrArg (·.1.phase) (does_fixed raised)).trans checking
      exact (raised.runs (.inr checking)).trans ((Turn.hear _ checks).runs.trans ((does_beginHearing _).runs (.inl rfl)))
    case isFalse => rfl

/-- Before hearing begins no other command has an effect (R175). -/
theorem exec_deaf {c : Instr} {s : State} (plain : isStartCommand c = false) (deaf : ¬hears s) : exec c s = .next s := by
  have event : ∀ f : State → State, whenHearing f s = s := fun f => whenHearing_off f s deaf
  have frame : ∀ (h : Header) (f : State → State), heard h f s = s := fun _ _ => event _
  have request : ∀ (h : Header) (f : State → State), heardFromCue h f s = s := fun h _ => frame h _
  cases c <;> simp only [isStartCommand, Bool.true_eq_false] at plain
  case frameDiscarded => rfl
  case frameHeardNotTaken | tally | stateFrame | ready => exact congrArg Host.Outcome.next (frame _ _)
  case cue | take | groupTake | cancel | cancelAll | hold | resume | storeShot | captureShot | eraseShot | readShot |
      clearFaults | forgetPeer | online | restart => exact congrArg Host.Outcome.next (request _ _)
  all_goals exact congrArg Host.Outcome.next (event _)

/-- Settles O20: every command is one of supply, reset and the start sequence, or waits for hearing. -/
theorem nothingElseHappensBeforeHearing : Obligations.NothingElseHappensBeforeHearing := by
  intro s c deaf
  cases plain : isStartCommand c with
  | false => exact .inl (exec_deaf plain deaf)
  | true =>
    right
    cases c <;> simp [isStartCommand] at plain ⊢

theorem exec_runs {c : Instr} {s t : State} (run : exec c s = .next t) : Runs s t := by
  cases plain : isStartCommand c with
  | true => exact startCommand_runs run plain
  | false =>
    by_cases hearing : hears s
    · exact effect_runs (exec_effect run plain) hearing
    · obtain rfl := Host.Outcome.next.inj ((exec_deaf plain hearing).symm.trans run)
      rfl

/-- A property of the state but for its queue that every command keeps is kept by every step. -/
theorem step_keeps {P : State → Prop} (queue : ∀ s q, P s → P (s.withPending q))
    (run : ∀ {s t}, Runs s t → P s → P t) {s t : State} (h : step s = .next t) (start : P s) : P t := by
  unfold step at h
  split at h
  · obtain rfl := Host.Outcome.next.inj h
    exact start
  · exact run (exec_runs h) (queue s _ start)

end Sys2Proof.Machine
end

section
/-! The invariants of every step, update by update and turn by turn: memory, capacities, names and the peer table; rates,
flags and the STATE marker; drive enable, timers and pins. -/
namespace Sys2Proof.Machine

/-! ### The shot store, the capacities and the names -/

theorem update_storeSound {s t : State} (h : Update s t) (sound : storeSound s) : storeSound t := by
  have of_eq : t.store = s.store → storeSound t := fun same => by rwa [storeSound, same]
  cases h
  case store m free kept => exact kept sound
  case marker => exact of_eq (setMarker_store s)
  case report => exact of_eq (pushReport_store _ s)
  case flags => exact of_eq (by rw [raiseFlags_eq])
  case stop => exact of_eq (by rw [setFaultStop_eq, raiseFlags_eq])
  all_goals exact sound

theorem turn_storeSound {s t : State} (h : Turn s t) (sound : storeSound s) : storeSound t := by
  cases h
  case halt p pin _ =>
    rw [haltPart_eq]
    exact ⟨cutWrite_sound (setResetPin pin s) sound, fun _ hw => nomatch hw⟩
  case start => exact ⟨cutWrite_sound s sound, fun _ hw => nomatch hw⟩
  case clear classes =>
    have same : (clearFlags classes s).store = s.store := by
      unfold clearFlags
      dsimp only
      split
      · rfl
      · exact setMarker_store _
    rwa [storeSound, same]
  case conflict =>
    unfold setIdentityConflict returnToOffline
    dsimp only
    split
    · exact sound
    · exact sound
  case stop => rwa [setFaultStop_eq]
  case release => rwa [returnToActive_eq]
  all_goals exact sound

theorem update_withinCapacity {s t : State} (h : Update s t) (fits : withinCapacity s) : withinCapacity t := by
  obtain ⟨cues, groups, ready, reports, cursor, abandons⟩ := fits
  cases h
  case marker => rw [setMarker_eq]; exact ⟨cues, groups, ready, reports, cursor, abandons⟩
  case report r =>
    rw [pushReport_eq]
    exact ⟨cues, groups, by simpa using ready, busAfterReport_capacity r _ reports, by simpa using cursor,
      by simpa using abandons⟩
  case flags c n _ =>
    rw [raiseFlags_eq]
    exact ⟨cues, groups, by simpa using ready, busAfterRaise_capacity c n s reports, by simpa using cursor,
      by simpa using abandons⟩
  case stop c n _ _ =>
    rw [setFaultStop_eq, raiseFlags_eq]
    exact ⟨cues, groups, by simpa using ready, busAfterRaise_capacity c n s reports, by simpa using cursor,
      by simpa using abandons⟩
  case cues l tags _ =>
    exact ⟨(by simpa using tags.length_le : l.length ≤ s.cues.length).trans cues, groups, ready, reports, cursor, abandons⟩
  case newCue e _ room _ =>
    exact ⟨List.length_append.trans_le room, groups, ready, reports, cursor, abandons⟩
  case groups g ids =>
    exact ⟨cues, (by simpa using ids.length_le : g.records.length ≤ s.groups.records.length).trans groups, ready, reports,
      cursor, abandons⟩
  case newGroup r room _ =>
    exact ⟨cues, List.length_append.trans_le room, ready, reports, cursor, abandons⟩
  case bus b _ hr hp hc ha _ => exact ⟨cues, groups, hr ready, hp.trans reports, hc cursor, ha abandons⟩
  all_goals exact ⟨cues, groups, ready, reports, cursor, abandons⟩

theorem turn_withinCapacity {s t : State} (h : Turn s t) (fits : withinCapacity s) : withinCapacity t := by
  obtain ⟨cues, groups, ready, reports, cursor, abandons⟩ := fits
  cases h
  case halt => rw [haltPart_eq]; exact ⟨cues, groups, ready, reports, cursor, abandons⟩
  case start => exact ⟨Nat.zero_le _, Nat.zero_le _, Nat.zero_le _, Nat.zero_le _, Nat.zero_le _, Nat.zero_le _⟩
  case restart => exact ⟨Nat.zero_le _, Nat.zero_le _, Nat.zero_le _, Nat.zero_le _, Nat.zero_le _, Nat.zero_le _⟩
  case clear classes =>
    unfold clearFlags
    dsimp only
    split
    · exact ⟨cues, groups, ready, reports, cursor, abandons⟩
    · rw [setMarker_eq]; exact ⟨cues, groups, ready, reports, cursor, abandons⟩
  case conflict =>
    unfold setIdentityConflict returnToOffline
    dsimp only
    split
    · exact ⟨cues, groups, ready, reports, cursor, abandons⟩
    · exact ⟨cues, groups, ready, reports, cursor, abandons⟩
  case stop => rw [setFaultStop_eq]; exact ⟨cues, groups, ready, reports, cursor, abandons⟩
  case release => rw [returnToActive_eq]; exact ⟨cues, groups, ready, reports, cursor, abandons⟩
  all_goals exact ⟨cues, groups, ready, reports, cursor, abandons⟩

theorem nodup_concat {α : Type} {l : List α} {a : α} (h : l.Nodup) (fresh : a ∉ l) : (l ++ [a]).Nodup := by
  simpa [List.nodup_append] using ⟨h, fun b hb => fun e => fresh (e ▸ hb)⟩

theorem update_distinctNames {s t : State} (h : Update s t) (distinct : distinctNames s) : distinctNames t := by
  obtain ⟨tags, ids⟩ := distinct
  cases h
  case marker => rw [setMarker_eq]; exact ⟨tags, ids⟩
  case report => rw [pushReport_eq]; exact ⟨tags, ids⟩
  case flags => rw [raiseFlags_eq]; exact ⟨tags, ids⟩
  case stop => rw [setFaultStop_eq, raiseFlags_eq]; exact ⟨tags, ids⟩
  case cues l sub _ => exact ⟨tags.sublist sub, ids⟩
  case newCue e _ _ fresh => exact ⟨by simpa using nodup_concat tags fresh, ids⟩
  case groups g sub => exact ⟨tags, ids.sublist sub⟩
  case newGroup r _ fresh => exact ⟨tags, by simpa using nodup_concat ids fresh⟩
  all_goals exact ⟨tags, ids⟩

theorem turn_distinctNames {s t : State} (h : Turn s t) (distinct : distinctNames s) : distinctNames t := by
  cases h
  case halt => rw [haltPart_eq]; exact distinct
  case start => exact ⟨List.nodup_nil, List.nodup_nil⟩
  case restart => exact ⟨List.nodup_nil, List.nodup_nil⟩
  case clear classes =>
    unfold clearFlags
    dsimp only
    split
    · exact distinct
    · rw [setMarker_eq]; exact distinct
  case conflict =>
    unfold setIdentityConflict returnToOffline
    dsimp only
    split
    · exact distinct
    · exact distinct
  case stop => rw [setFaultStop_eq]; exact distinct
  case release => rw [returnToActive_eq]; exact distinct
  all_goals exact distinct

/-! ### The peer table -/

theorem update_peersRight {s t : State} (h : Update s t) (right : peersRight s) : peersRight t := by
  have of_eq : t.peers = s.peers → t.control.number = s.control.number → t.control.phase = s.control.phase →
      peersRight t := fun peers number phase => by rwa [peersRight, peers, number, phase]
  cases h
  case peers l kept => exact kept right
  case marker => rw [setMarker_eq]; exact right
  case report => rw [pushReport_eq]; exact right
  case flags => rw [raiseFlags_eq]; exact right
  case stop => rw [setFaultStop_eq, raiseFlags_eq]; exact right
  all_goals exact right

theorem turn_peersRight {s t : State} (h : Turn s t) (right : peersRight s) : peersRight t := by
  have none : peersRight t → peersRight t := id
  have of_none : t.peers = [] → peersRight t := fun none => by
    refine ⟨?_, ?_, ?_, fun _ => none, fun _ => none⟩ <;> simp [none]
  cases h
  case halt p pin agrees =>
    obtain ⟨few, ascending, each, alone, _⟩ := right
    rw [haltPart_eq]
    refine ⟨few, ascending, each, alone, fun h => ?_⟩
    rcases agrees with rfl | ⟨rfl, _⟩ <;> rcases h with h | h <;> cases h
  case start => exact of_none rfl
  case restart => exact of_none rfl
  case configured _ _ reading =>
    obtain ⟨_, _, _, _, early⟩ := right
    exact of_none (early (.inl reading))
  case hear checking =>
    obtain ⟨_, _, _, _, early⟩ := right
    exact of_none (early (.inr checking))
  case clear classes =>
    unfold clearFlags
    dsimp only
    split
    · exact right
    · rw [setMarker_eq]; exact right
  case conflict =>
    unfold setIdentityConflict returnToOffline
    dsimp only
    split
    · exact right
    · exact right
  case stop => rw [setFaultStop_eq]; exact right
  case release => rw [returnToActive_eq]; exact right
  all_goals exact right

/-! ### Rates, flags and the STATE marker -/

theorem update_rateInRange {s t : State} (h : Update s t) (inRange : rateInRange s) : rateInRange t := by
  obtain ⟨live, rate, retries⟩ := inRange
  cases h
  case marker => rw [setMarker_eq]; exact ⟨live, rate, retries⟩
  case report => rw [pushReport_eq]; exact ⟨live, rate, retries⟩
  case flags => rw [raiseFlags_eq]; exact ⟨live, rate, retries⟩
  case stop => rw [setFaultStop_eq, raiseFlags_eq]; exact ⟨live, rate, retries⟩
  case cues l _ kept =>
    refine ⟨live, rate, fun e he => ?_⟩
    rcases kept e he with low | ⟨d, hd, same⟩
    · exact low
    · exact same ▸ retries d hd
  case newCue e retry _ _ =>
    refine ⟨live, rate, fun d hd => ?_⟩
    rcases List.mem_append.mp hd with hd | hd
    · exact retries d hd
    · exact List.mem_singleton.mp hd ▸ retry
  case profile p kept _ => exact ⟨live, kept live rate, retries⟩
  all_goals exact ⟨live, rate, retries⟩

/-- A configuration that passed the check has its live rate in range (R177). -/
theorem checkConfiguration_liveRate {n : Nat} {image : List Byte} {cfg : Configuration}
    (h : checkConfiguration n image = some cfg) : cfg.liveRate ≤ 256 := by
  unfold checkConfiguration at h
  split at h
  · rename_i passes
    obtain rfl := Option.some.inj h
    simp only [valuesInRange, Bool.and_eq_true, decide_eq_true_eq] at passes
    omega
  · cases h

theorem turn_rateInRange {s t : State} (h : Turn s t) (inRange : rateInRange s) : rateInRange t := by
  obtain ⟨live, rate, retries⟩ := inRange
  cases h
  case halt => rw [haltPart_eq]; exact ⟨live, rate, retries⟩
  case start => exact ⟨Nat.le_refl 256, Nat.le_refl 256, fun _ he => nomatch he⟩
  case restart => exact ⟨live, rate, fun _ he => nomatch he⟩
  case configured straps image _ =>
    refine ⟨?_, rate, retries⟩
    cases check : checkConfiguration straps.toNat image with
    | none => simp [configOf, noConfiguration]
    | some cfg => simpa [configOf] using checkConfiguration_liveRate check
  case clear classes =>
    unfold clearFlags
    dsimp only
    split
    · exact ⟨live, rate, retries⟩
    · rw [setMarker_eq]; exact ⟨live, rate, retries⟩
  case conflict =>
    unfold setIdentityConflict returnToOffline
    dsimp only
    split
    · exact ⟨live, rate, retries⟩
    · exact ⟨live, rate, retries⟩
  case stop => rw [setFaultStop_eq]; exact ⟨live, rate, retries⟩
  case release => rw [returnToActive_eq]; exact ⟨live, rate, retries⟩
  all_goals exact ⟨live, rate, retries⟩

/-- A raise sets the sticky flag first, so its recur flag stands with it (R164). -/
theorem flagsAfterRaise_eq (f : FaultFlags) : flagsAfterRaise f = ⟨true, f.sticky⟩ := by
  unfold flagsAfterRaise
  split <;> simp_all

theorem raised_recurWithinSticky {s : State} (c : FaultClass) (h : recurWithinSticky s) (d : FaultClass) :
    ((s.faults.set c (flagsAfterRaise (s.faults.get c))).get d).recur = true →
      ((s.faults.set c (flagsAfterRaise (s.faults.get c))).get d).sticky = true := by
  rw [PerClass.get_set, flagsAfterRaise_eq]
  split
  · exact fun _ => rfl
  · exact h d

theorem update_recurWithinSticky {s t : State} (h : Update s t) (within : recurWithinSticky s) : recurWithinSticky t := by
  cases h
  case marker => rw [setMarker_eq]; exact within
  case report => rw [pushReport_eq]; exact within
  case flags c n _ => rw [raiseFlags_eq]; exact raised_recurWithinSticky c within
  case stop c n _ _ => rw [setFaultStop_eq, raiseFlags_eq]; exact raised_recurWithinSticky c within
  all_goals exact within

theorem turn_recurWithinSticky {s t : State} (h : Turn s t) (within : recurWithinSticky s) : recurWithinSticky t := by
  have of_none : t.faults = noFaults → recurWithinSticky t := fun none c => by simp [none]
  cases h
  case halt => rw [haltPart_eq]; exact within
  case start => exact of_none rfl
  case restart => exact of_none rfl
  case clear classes =>
    have cleared : ∀ c, ((clearClasses s.faults (inClassSet classes)).get c).recur = true →
        ((clearClasses s.faults (inClassSet classes)).get c).sticky = true := fun c => by
      simp only [clearClasses, PerClass.get_ofFn]
      split
      · simp
      · exact within c
    unfold clearFlags
    dsimp only
    split
    · exact within
    · rw [setMarker_eq]; exact cleared
  case conflict =>
    unfold setIdentityConflict returnToOffline
    dsimp only
    split
    · exact within
    · exact within
  case stop => rw [setFaultStop_eq]; exact within
  case release => rw [returnToActive_eq]; exact within
  all_goals exact within

theorem update_markerOnlyOnBus {s t : State} (h : Update s t) (clear : markerOnlyOnBus s) : markerOnlyOnBus t := by
  cases h
  case marker =>
    rw [setMarker_eq]
    exact fun off => by simpa [show onBus s = false from off] using clear off
  case report => rw [pushReport_eq]; exact fun off => by simpa using clear off
  case flags c n _ =>
    rw [raiseFlags_eq]
    exact fun off => by simpa [busAfterRaise_stateMarker, show onBus s = false from off] using clear off
  case stop => rw [setFaultStop_eq]; exact fun off => by simp [onBus] at off
  case bus b marker _ _ _ _ _ =>
    exact fun off => Bool.eq_false_iff.mpr fun set => by simp [clear off] at marker; exact absurd set (by simp [marker])
  all_goals exact clear

theorem turn_markerOnlyOnBus {s t : State} (h : Turn s t) (clear : markerOnlyOnBus s) : markerOnlyOnBus t := by
  cases h
  case halt => rw [haltPart_eq]; exact clear
  case start => exact fun _ => rfl
  case restart => exact fun _ => rfl
  case clear classes =>
    unfold clearFlags
    dsimp only
    split
    · exact clear
    · rw [setMarker_eq]
      intro off
      have off : onBus s = false := off
      show (s.bus.stateMarker || onBus s) = false
      rw [off, clear off, Bool.false_or]
  case conflict _ off =>
    have offBus : onBus s = false := by rcases off with off | off <;> simp [onBus, off]
    unfold setIdentityConflict returnToOffline
    dsimp only
    split
    · exact fun _ => rfl
    · exact fun _ => clear offBus
  case join _ may =>
    have offline : onBus s = false := by simp [onBus, (mayGoOnline_iff.mp may).1]
    exact fun _ => clear offline
  case activate => exact fun off => by simp [onBus] at off
  case stop => rw [setFaultStop_eq]; exact fun off => by simp [onBus] at off
  case release => rw [returnToActive_eq]; exact fun off => by simp [onBus] at off
  all_goals exact clear

/-- Settles O54: rates, flags and the STATE marker are kept by every update and every turn, so by every step. -/
theorem stepKeepsRatesFlagsAndMarker : Obligations.StepKeepsRatesFlagsAndMarker := fun _ _ run =>
  ⟨step_keeps (fun _ _ => id) (runs_keep update_rateInRange turn_rateInRange) run,
    step_keeps (fun _ _ => id) (runs_keep update_recurWithinSticky turn_recurWithinSticky) run,
    step_keeps (fun _ _ => id) (runs_keep update_markerOnlyOnBus turn_markerOnlyOnBus) run⟩

/-! ### Drive enable, timers and pins -/

theorem update_resetPinRight {s t : State} (h : Update s t) (right : resetPinRight s) : resetPinRight t := by
  have same := update_fixed h
  have phase : t.control.phase = s.control.phase := congrArg (·.1.phase) same
  have pin : t.control.resetPin = s.control.resetPin := congrArg (·.1.resetPin) same
  rwa [resetPinRight, phase, pin]

theorem turn_resetPinRight {s t : State} (h : Turn s t) (right : resetPinRight s) : resetPinRight t := by
  cases h
  case halt p pin agrees =>
    rcases agrees with rfl | ⟨rfl, rfl⟩
    · exact fun powered => absurd (haltPart_phase _ _) powered
    · exact fun _ => by simp
  case pin off => exact fun powered => absurd off powered
  case start => exact fun _ => by simp [startSequence, State.reset]
  case configured reading => exact fun _ => by simpa [reading] using right (by simp [reading])
  case hear checking => exact fun _ => by simpa [checking] using right (by simp [checking])
  case clear classes =>
    unfold clearFlags
    dsimp only
    split
    · exact right
    · rw [setMarker_eq]; exact right
  case conflict =>
    unfold setIdentityConflict returnToOffline
    dsimp only
    split
    · exact right
    · exact right
  case stop => rw [setFaultStop_eq]; exact right
  case release => rw [returnToActive_eq]; exact right
  all_goals exact right

/-- Drive enable, timers and pins agree with phase and station state (R5, R130, R174, R184). -/
def outputsRight (s : State) : Prop := driveEnableRight s ∧ stationTimersRight s ∧ statusPinsRight s

/-- Outputs that no update and no turn but station control's touches stay right. -/
theorem outputsRight_congr {s t : State} (control : t.control = s.control) (timer : t.port.servoTimer = s.port.servoTimer)
    (right : outputsRight s) : outputsRight t := by
  obtain ⟨enable, timers, pins⟩ := right
  exact ⟨by rwa [driveEnableRight, control], by rwa [stationTimersRight, hears, control, timer],
    by rwa [statusPinsRight, control]⟩

/-- What the outputs are, while the part hears. -/
theorem outputsRight_hearing {s : State} (hearing : hears s) :
    outputsRight s ↔
      ((s.control.station = .offline → s.control.driveEnable = false) ∧
        (s.control.station = .joining ∨ s.control.station = .active → s.control.driveEnable = true)) ∧
      ((s.control.joinTimer = true → s.control.station = .joining) ∧
        (s.port.servoTimer = true ↔ s.control.station ≠ .offline)) ∧
      s.control.onlinePin = decide (s.control.station ≠ .offline) ∧
      s.control.faultPin = decide (s.control.station = .faultStop) ∧
      s.control.configBadPin = s.control.config.isNone ∧ s.control.idConflictPin = s.control.identityConflict := by
  have phase : s.control.phase = .hearing := hearing
  unfold outputsRight driveEnableRight stationTimersRight statusPinsRight
  simp only [hears, phase, true_and, Prod.mk.injEq]
  cases s.control.station <;> simp

/-- With the station OFFLINE while the start-up check runs no update reaches the outputs. -/
theorem update_offline {s t : State} (h : Update s t) (offline : s.control.station = .offline) :
    t.control.station = .offline ∧ t.control.driveEnable = s.control.driveEnable ∧
      t.control.faultPin = s.control.faultPin := by
  cases h
  case marker => simp [offline]
  case report => simp [offline]
  case flags => simp [offline]
  case stop active _ => simp [offline] at active
  case power stopped => simp [offline] at stopped
  all_goals exact ⟨offline, rfl, rfl⟩

theorem update_outputsRight {s t : State} (h : Update s t) (up : awake s) (right : outputsRight s) : outputsRight t := by
  have timer := fixed_servoTimer (update_fixed h)
  rcases up with hearing | checking
  · have still : hears t := (fixed_hears (update_fixed h)).mpr hearing
    rw [outputsRight_hearing still]
    rw [outputsRight_hearing hearing] at right
    cases h
    case marker => simpa [setMarker_eq] using right
    case report => simpa [pushReport_eq] using right
    case flags => simpa [raiseFlags_eq] using right
    case stop active _ => simp_all [setFaultStop_eq, raiseFlags_eq]
    case power stopped => simp_all
    case port => simp_all
    all_goals exact right
  · obtain ⟨enable, timers, pins⟩ := right
    have offline : s.control.station = .offline := by
      simp only [driveEnableRight, checking] at enable
      exact enable.1
    obtain ⟨station, drive, fault⟩ := update_offline h offline
    have same : t.control = { s.control with restartPending := t.control.restartPending } := by
      have rest := congrArg Prod.fst (update_fixed h)
      simp only [fixed] at rest
      generalize t.control = a at rest station drive fault ⊢
      generalize s.control = b at rest offline drive fault ⊢
      cases a
      cases b
      simp_all
    refine ⟨?_, ?_, ?_⟩
    · rw [driveEnableRight, same]
      exact enable
    · rw [stationTimersRight, hears, same, timer]
      exact timers
    · rw [statusPinsRight, same]
      exact pins

theorem turn_outputsRight {s t : State} (h : Turn s t) (right : outputsRight s) : outputsRight t := by
  cases h
  case halt p pin agrees =>
    rw [haltPart_eq]
    rcases agrees with rfl | ⟨rfl, _⟩ <;>
      simp [outputsRight, driveEnableRight, stationTimersRight, statusPinsRight, hears]
  case pin off =>
    obtain ⟨enable, timers, pins⟩ := right
    refine ⟨?_, timers, ?_⟩
    · simpa [driveEnableRight, off, setResetPin] using enable
    · simpa [statusPinsRight, off, setResetPin] using pins
  case start =>
    simp [outputsRight, driveEnableRight, stationTimersRight, statusPinsRight, startSequence, State.reset, hears]
  case configured reading =>
    simp_all [outputsRight, driveEnableRight, stationTimersRight, statusPinsRight, hears]
  case hear checking =>
    simp_all [outputsRight, driveEnableRight, stationTimersRight, statusPinsRight, hears]
  case clear classes =>
    refine outputsRight_congr ?_ ?_ right <;>
    · unfold clearFlags
      dsimp only
      split <;> simp
  case conflict hearing off =>
    have still : hears (setIdentityConflict s) := by
      unfold setIdentityConflict returnToOffline
      dsimp only
      split <;> exact hearing
    rw [outputsRight_hearing still]
    rw [outputsRight_hearing hearing] at right
    rcases off with off | off <;> simp_all [setIdentityConflict, returnToOffline]
  case join hearing may =>
    have offline := (mayGoOnline_iff.mp may).1
    rw [outputsRight_hearing (show hears (enterJoining s) from hearing)]
    rw [outputsRight_hearing hearing] at right
    simp_all [enterJoining]
  case activate hearing joined =>
    refine Iff.mpr (outputsRight_hearing (by exact hearing)) ?_
    rw [outputsRight_hearing hearing] at right
    simp_all
  case stop hearing active =>
    rw [setFaultStop_eq]
    refine Iff.mpr (outputsRight_hearing (by exact hearing)) ?_
    rw [outputsRight_hearing hearing] at right
    simp_all
  case release hearing stopped =>
    rw [returnToActive_eq]
    refine Iff.mpr (outputsRight_hearing (by exact hearing)) ?_
    rw [outputsRight_hearing hearing] at right
    simp_all
  case restart hearing online =>
    refine (outputsRight_hearing (show hears (restartEffect s) from hearing)).mpr ?_
    rw [outputsRight_hearing hearing] at right
    simp_all [restartEffect]
  all_goals exact right

theorem runs_outputsRight {s t : State} (h : Runs s t) (right : outputsRight s) : outputsRight t := by
  induction h with
  | refl => exact right
  | tail _ last ih =>
    rcases last with ⟨up, update⟩ | turn
    · exact update_outputsRight update up ih
    · exact turn_outputsRight turn ih

/-- Settles O55: the pins and timers follow the station state through every update made while awake and every turn. -/
theorem stepKeepsStationOutputs : Obligations.StepKeepsStationOutputs := fun _ _ run =>
  ⟨step_keeps (fun _ _ => id) (runs_keep update_resetPinRight turn_resetPinRight) run,
    fun enable timers pins => step_keeps (P := outputsRight) (fun _ _ => id) runs_outputsRight run ⟨enable, timers, pins⟩⟩

end Sys2Proof.Machine
end

section
/-! The station state and its table (R174): updates alone only enter FAULT_STOP from ACTIVE, by a raise of a STOP-severity class
whose flags stay set; every other row of the table is one of the turns of `Effect`. -/
namespace Sys2Proof.Machine

/-- A raise of STOP severity has been made since `s`, and its flags stand in `t`. -/
def raisedStop (s t : State) : Prop :=
  ∃ k, isStop s k = true ∧ (t.faults.get k).sticky = true ∧ ((s.faults.get k).sticky = true → (t.faults.get k).recur = true)

/-- The flags of `s` still stand in `t`. -/
def flagsStand (s t : State) : Prop :=
  ∀ k, (s.faults.get k).sticky = true →
    (t.faults.get k).sticky = true ∧ ((s.faults.get k).recur = true → (t.faults.get k).recur = true)

/-- The sticky flags of the STOP-severity classes are the same. -/
def sameStopFlags (s t : State) : Prop := ∀ k, isStop s k = true → (t.faults.get k).sticky = (s.faults.get k).sticky

/-- What updates alone make of the station state: it stays, in ACTIVE with no STOP-severity class raised, or such a raise takes
ACTIVE to FAULT_STOP. -/
structure Moved (s t : State) : Prop where
  severity : ∀ k, isStop t k = isStop s k
  stand : flagsStand s t
  station : (t.control.station = s.control.station ∧ (s.control.station = .active → sameStopFlags s t)) ∨
    (s.control.station = .active ∧ t.control.station = .faultStop ∧ raisedStop s t)

theorem Moved.refl (s : State) : Moved s s := ⟨fun _ => rfl, fun _ sticky => ⟨sticky, id⟩, .inl ⟨rfl, fun _ _ _ => rfl⟩⟩

theorem Moved.trans {s t u : State} (first : Moved s t) (second : Moved t u) : Moved s u where
  severity k := (second.severity k).trans (first.severity k)
  stand k sticky := by
    obtain ⟨still, recur⟩ := first.stand k sticky
    obtain ⟨still', recur'⟩ := second.stand k still
    exact ⟨still', recur' ∘ recur⟩
  station := by
    rcases first.station with ⟨same, flags⟩ | ⟨active, stopped, k, severe, sticky, recur⟩
    · rcases second.station with ⟨same', flags'⟩ | ⟨active, stopped, k, severe, sticky, recur⟩
      · refine .inl ⟨same'.trans same, fun active k severe => ?_⟩
        exact (flags' (same.trans active) k ((first.severity k).trans severe)).trans (flags active k severe)
      · exact .inr ⟨same.symm.trans active, stopped, k, (first.severity k).symm.trans severe, sticky,
          fun before => recur (first.stand k before).1⟩
    · rcases second.station with ⟨same', _⟩ | ⟨active', _⟩
      · exact .inr ⟨active, same'.trans stopped, k, severe, (second.stand k sticky).1,
          (second.stand k sticky).2 ∘ recur⟩
      · simp [stopped] at active'

/-- Nothing of the fault set, the configuration or the station state changed. -/
theorem Moved.of_eq {s t : State} (station : t.control.station = s.control.station) (config : t.control.config = s.control.config)
    (faults : t.faults = s.faults) : Moved s t where
  severity k := by simp [isStop, settingOf_config s t config]
  stand k := by simp [faults]
  station := .inl ⟨station, fun _ k _ => by rw [faults]⟩

theorem raiseFlags_stand (c : FaultClass) (n : FaultName) (s : State) : flagsStand s (raiseFlags c n s) := fun k sticky => by
  rw [raiseFlags_eq, PerClass.get_set, flagsAfterRaise_eq]
  split
  case isTrue same =>
    subst same
    exact ⟨rfl, fun _ => sticky⟩
  case isFalse => exact ⟨sticky, id⟩

theorem update_moved {s t : State} (h : Update s t) : Moved s t := by
  cases h
  case marker => rw [setMarker_eq]; exact .of_eq rfl rfl rfl
  case report => rw [pushReport_eq]; exact .of_eq rfl rfl rfl
  case flags c n only =>
    refine ⟨fun k => ?_, raiseFlags_stand c n s, .inl ⟨by rw [raiseFlags_eq], fun active k severe => ?_⟩⟩
    · rw [raiseFlags_eq]
      rfl
    · have mild := only.resolve_left (not_not.mpr active)
      have other : k ≠ c := fun same => by simp [same, mild] at severe
      rw [raiseFlags_eq, PerClass.get_set, if_neg other]
  case stop c n active severe =>
    rw [setFaultStop_eq]
    refine ⟨fun k => ?_, raiseFlags_stand c n s, .inr ⟨active, rfl, c, severe, ?_⟩⟩
    · rw [raiseFlags_eq]
      rfl
    · simp [raiseFlags_eq, flagsAfterRaise_eq]
  all_goals exact .of_eq rfl rfl rfl

theorem does_moved {s t : State} (h : Does s t) : Moved s t := by
  induction h with
  | refl => exact .refl s
  | tail _ last ih => exact ih.trans (update_moved last)

/-- Only ACTIVE is left by updates. -/
theorem Moved.stays {s t : State} (h : Moved s t) (other : s.control.station ≠ .active) :
    t.control.station = s.control.station :=
  h.station.elim And.left fun ⟨active, _⟩ => absurd active other

theorem Moved.came {s t : State} (h : Moved s t) (other : t.control.station ≠ .faultStop) :
    t.control.station = s.control.station :=
  h.station.elim And.left fun ⟨_, stopped, _⟩ => absurd stopped other

theorem stopFlagSet_iff (s : State) : stopFlagSet s = true ↔ ∃ k, isStop s k = true ∧ (s.faults.get k).sticky = true := by
  simp only [stopFlagSet, List.any_eq_true, Bool.and_eq_true]
  exact ⟨fun ⟨k, _, h⟩ => ⟨k, h⟩, fun ⟨k, h⟩ => ⟨k, by cases k <;> decide, h⟩⟩

/-- STOP-severity flags stay set through updates. -/
theorem Moved.stopFlagSet {s t : State} (h : Moved s t) (set : stopFlagSet s = true) : stopFlagSet t = true := by
  obtain ⟨k, severe, sticky⟩ := (stopFlagSet_iff s).mp set
  exact (stopFlagSet_iff t).mpr ⟨k, (h.severity k).trans severe, (h.stand k sticky).1⟩

/-- A station that stays ACTIVE gets no STOP-severity flag from updates. -/
theorem Moved.noStopFlag {s t : State} (h : Moved s t) (active : t.control.station = .active)
    (clear : Machine.stopFlagSet s = false) : Machine.stopFlagSet t = false := by
  have same : t.control.station = s.control.station := h.came (by simp [active])
  have flags : sameStopFlags s t := by
    rcases h.station with ⟨_, flags⟩ | ⟨_, stopped, _⟩
    · exact flags (same ▸ active)
    · simp [active] at stopped
  refine Bool.eq_false_iff.mpr fun set => ?_
  obtain ⟨k, severe, sticky⟩ := (stopFlagSet_iff t).mp set
  have severe : isStop s k = true := (h.severity k).symm.trans severe
  exact absurd ((stopFlagSet_iff s).mpr ⟨k, severe, (flags k severe).symm.trans sticky⟩) (by simp [clear])

/-- Flags that stand carry a later raise back. -/
theorem raisedStop.since {s t u : State} (severity : ∀ k, isStop t k = isStop s k) (stand : flagsStand s t)
    (h : raisedStop t u) : raisedStop s u := by
  obtain ⟨k, severe, sticky, recur⟩ := h
  exact ⟨k, (severity k).symm.trans severe, sticky, fun before => recur (stand k before).1⟩

/-- The rows of R174's table. -/
def stationRow (c : Instr) (s t : State) : Prop :=
    t.control.station = s.control.station ∨
      (s.control.station = .offline ∧ t.control.station = .joining ∧ ((∃ h, c = .online h) ∨ ∃ r, c = .driveReply r)) ∨
      (s.control.station = .joining ∧ t.control.station = .offline ∧ duplicates c s) ∨
      (s.control.station = .joining ∧ t.control.station = .active ∧ c = .joinTimerExpiry ∧ stopFlagSet t = false) ∨
      (s.control.station = .joining ∧ t.control.station = .faultStop ∧ c = .joinTimerExpiry ∧ stopFlagSet t = true) ∨
      (s.control.station ≠ .offline ∧ t.control.station = .joining ∧ ((∃ h, c = .restart h) ∨ c = .servoPeriodExpiry)) ∨
      (s.control.station = .active ∧ t.control.station = .faultStop ∧ raisedStop s t) ∨
      (s.control.station = .faultStop ∧ t.control.station = .active ∧ stopFlagSet t = false ∧
        ((∃ h w, c = .clearFaults h w) ∨ c = .servoPeriodExpiry))

theorem Moved.row {c : Instr} {s t : State} (h : Moved s t) : stationRow c s t := by
  rcases h.station with ⟨same, _⟩ | ⟨active, stopped, raised⟩
  · exact .inl same
  · exact .inr (.inr (.inr (.inr (.inr (.inr (.inl ⟨active, stopped, raised⟩))))))

theorem row_conflict {c : Instr} {s : State} (off : s.control.station = .offline ∨ s.control.station = .joining)
    (duplicate : duplicates c s) : stationRow c s (setIdentityConflict (endSpent s)) := by
  have left : (setIdentityConflict (endSpent s)).control.station = .offline := by
    unfold setIdentityConflict returnToOffline
    dsimp only
    split
    · rfl
    · exact off.resolve_right (by assumption)
  rcases off with off | off
  · exact .inl (left.trans off.symm)
  · exact .inr (.inr (.inl ⟨off, left, duplicate⟩))

/-- The station after the join timer's expiry is ACTIVE or in FAULT_STOP as the STOP-severity flags say. -/
theorem row_activate {s t u : State} (timers : stationTimersRight s) (timer : s.control.joinTimer = true)
    (done : Does { s with control := { s.control with station := .active, joinTimer := false } } t)
    (ends : (u = t ∧ (t.control.station = .active → stopFlagSet t = false)) ∨
      (t.control.station = .active ∧ stopFlagSet t = true ∧ u = enterFaultStop t)) :
    stationRow .joinTimerExpiry s u := by
  have joining : s.control.station = .joining := (timers.1 timer).2
  have stopped : ∀ {u : State}, u.control.station = .faultStop → stopFlagSet u = true → stationRow .joinTimerExpiry s u :=
    fun station set => .inr (.inr (.inr (.inr (.inl ⟨joining, station, rfl, set⟩))))
  have moved := does_moved done
  rcases ends with ⟨rfl, clear⟩ | ⟨_, set, rfl⟩
  · rcases moved.station with ⟨active, _⟩ | ⟨_, stop, k, severe, sticky, _⟩
    · exact .inr (.inr (.inr (.inl ⟨joining, active, rfl, clear active⟩)))
    · exact stopped stop ((stopFlagSet_iff u).mpr ⟨k, (moved.severity k).trans severe, sticky⟩)
  · have further := does_moved (does_enterFaultStop t)
    have enters : (setFaultStop t).control.station = .faultStop := by rw [setFaultStop_eq]
    have set : stopFlagSet (setFaultStop t) = true := by rw [setFaultStop_eq]; exact set
    exact stopped ((further.stays (by simp)).trans enters) (further.stopFlagSet set)

theorem row_clear {h : Header} {w : BitVec 16} {s u : State}
    (ends : u = clearFlags w (endSpent s) ∨ ((clearFlags w (endSpent s)).control.station = .faultStop ∧
      stopFlagSet (clearFlags w (endSpent s)) = false ∧ u = returnToActive (clearFlags w (endSpent s)))) :
    stationRow (.clearFaults h w) s u := by
  have kept : (clearFlags w (endSpent s)).control.station = s.control.station := by
    unfold clearFlags
    dsimp only
    split
    · rfl
    · rw [setMarker_eq]
      rfl
  rcases ends with rfl | ⟨stopped, clear, rfl⟩
  · exact .inl kept
  · have active : (returnToActive (clearFlags w (endSpent s))).control.station = .active := by rw [returnToActive_eq]
    refine .inr (.inr (.inr (.inr (.inr (.inr (.inr ⟨kept.symm.trans stopped, active, ?_, .inl ⟨h, w, rfl⟩⟩))))))
    rw [returnToActive_eq]
    exact clear

/-- A servo period: updates, a fault stop's end in between, a RESTART that waited, then updates again. -/
theorem row_period {s t u v w : State} (timers : stationTimersRight s) (timer : s.port.servoTimer = true) (before : Does s t)
    (back : u = t ∨ (t.control.station = .faultStop ∧ stopFlagSet t = false ∧ u = returnToActive t))
    (restarts : v = u ∨ v = restartEffect u) (after : Does v w) : stationRow .servoPeriodExpiry s w := by
  have online : s.control.station ≠ .offline := (timers.2.mp timer).2
  have early := does_moved before
  have late := does_moved after
  rcases restarts with rfl | rfl
  case inr =>
    have joining : w.control.station = .joining := late.stays (by simp [restartEffect])
    exact .inr (.inr (.inr (.inr (.inr (.inl ⟨online, joining, .inr rfl⟩)))))
  case inl =>
    rcases back with rfl | ⟨stopped, clear, rfl⟩
    · exact (early.trans late).row
    · have active : (returnToActive t).control.station = .active := by rw [returnToActive_eq]
      have severity : ∀ k, isStop (returnToActive t) k = isStop s k := fun k => by
        rw [← early.severity k, returnToActive_eq]
        rfl
      have stand : flagsStand s (returnToActive t) := by
        rw [returnToActive_eq]
        exact early.stand
      have clear : stopFlagSet (returnToActive t) = false := by
        rw [returnToActive_eq]
        exact clear
      have here : s.control.station = .faultStop ∨ s.control.station = .active :=
        early.station.elim (fun same => .inl (same.1.symm.trans stopped)) fun ⟨was, _⟩ => .inr was
      rcases late.station with ⟨same, _⟩ | ⟨_, stops, raised⟩
      · have there : w.control.station = .active := same.trans active
        rcases here with here | here
        · exact .inr (.inr (.inr (.inr (.inr (.inr (.inr ⟨here, there, late.noStopFlag there clear, .inr rfl⟩))))))
        · exact .inl (there.trans here.symm)
      · rcases here with here | here
        · exact .inl (stops.trans here.symm)
        · exact .inr (.inr (.inr (.inr (.inr (.inr (.inl ⟨here, stops, raised.since severity stand⟩))))))

theorem effect_row {c : Instr} {s t : State} (timers : stationTimersRight s) (h : Effect c s t) : stationRow c s t := by
  cases h with
  | updates done => exact (does_moved done).row
  | conflict _ off duplicate => exact row_conflict off duplicate
  | @readEnd u done _ => exact ((does_moved done).trans (.of_eq rfl rfl rfl)).row
  | @joinAfterRead u _ done answer may =>
    have offline : u.control.station = .offline := (mayGoOnline_iff.mp may).1
    have here := (does_moved done).came (by simp [offline])
    exact .inr (.inl ⟨here.symm.trans offline, rfl, .inr answer⟩)
  | join _ online may => exact .inr (.inl ⟨(mayGoOnline_iff.mp may).1, rfl, .inl online⟩)
  | activate _ timer expiry done ends =>
    subst expiry
    exact row_activate timers timer done ends
  | clear _ w clears ends =>
    obtain ⟨h, rfl⟩ := clears
    exact row_clear ends
  | restart _ asked online => exact .inr (.inr (.inr (.inr (.inr (.inl ⟨online, rfl, .inl asked⟩)))))
  | period _ timer expiry before back restarts after =>
    subst expiry
    exact row_period timers timer before back restarts after

/-- While the part hears, a command of supply, reset or the start sequence ends hearing or leaves the state. -/
theorem startCommand_hearing {c : Instr} {s t : State} (hearing : hears s) (run : exec c s = .next t)
    (start : isStartCommand c = true) (still : hears t) : t = s := by
  have phase : s.control.phase = .hearing := hearing
  cases c <;> simp only [isStartCommand, Bool.false_eq_true] at start <;>
    (obtain rfl := Host.Outcome.next.inj run; clear start run)
  case configTransferAbandon | configurationCheck | startUpCheck => simp [phase]
  case powerOn => split at still <;> simp [hears, startSequence, haltPart_eq, State.reset] at still
  all_goals simp [phase, hears, startSequence, haltPart_eq, State.reset] at still

/-- Settles O56: the effect of every command, read off against R174's table. -/
theorem stationStateChangesOnlyByItsTable : Obligations.StationStateChangesOnlyByItsTable := by
  intro s t c hearing timers run still
  cases plain : isStartCommand c with
  | false => exact effect_row timers (exec_effect run plain)
  | true =>
    obtain rfl := startCommand_hearing hearing run plain still
    exact .inl rfl

end Sys2Proof.Machine
end

section
/-! Supply, reset and the start sequence (R25, R30, R175 to R177), and the reset state. -/
namespace Sys2Proof.Machine

/-- Settles O1: `step` hands the front command the rest of the queue. -/
theorem stepRunsFrontCommand : Obligations.StepRunsFrontCommand := fun _ _ _ => ⟨rfl, rfl⟩

theorem cutWrite_none {s : State} (none : s.store.write = none) : cutWrite s = s := by simp only [cutWrite, none]

theorem startSequence_eq {s : State} (none : s.store.write = none) :
    startSequence s = { State.reset with
      store := { State.reset.store with areas := s.store.areas }, free := s.free, pending := s.pending } := by
  rw [startSequence, cutWrite_none none]

/-- Settles O2: the start sequence with no write in flight; without a supply only the pin's level changes. -/
theorem powerOnClearsVolatileState : Obligations.PowerOnClearsVolatileState := by
  intro s cleared
  refine ⟨fun none => ⟨fun released => ?_, fun supplied => ?_⟩, fun off => ⟨?_, ?_⟩⟩
  · show Host.Outcome.next (if s.control.resetPin then haltPart .heldInReset s else startSequence s) = _
    simp [released, startSequence_eq none, cleared]
  · show Host.Outcome.next (if s.control.phase = .unpowered then setResetPin false s else startSequence s) = _
    simp [supplied, startSequence_eq none, cleared]
  · show Host.Outcome.next (if s.control.phase = .unpowered then setResetPin true s else _) = _
    simp [off, setResetPin]
  · show Host.Outcome.next (if s.control.phase = .unpowered then setResetPin false s else _) = _
    simp [off, setResetPin]

/-- A halt of the part, as the commands make it: the pin's level as it is to stand. -/
theorem exec_halts {s : State} {c : Instr} {phase : Phase}
    (h : (c = .resetAsserted ∧ s.control.phase ≠ .unpowered ∧ phase = .heldInReset) ∨
      (c = .powerLoss ∧ phase = .unpowered) ∨ (c = .powerOn ∧ s.control.resetPin = true ∧ phase = .heldInReset)) :
    exec c s = .next (haltPart phase (setResetPin (s.control.resetPin || decide (c = .resetAsserted)) s)) := by
  rcases h with ⟨rfl, supplied, rfl⟩ | ⟨rfl, rfl⟩ | ⟨rfl, held, rfl⟩
  · show Host.Outcome.next (if s.control.phase = .unpowered then _ else haltPart .heldInReset (setResetPin true s)) = _
    simp [supplied]
  · simp [setResetPin_same]
    rfl
  · show Host.Outcome.next (if s.control.resetPin then haltPart .heldInReset s else _) = _
    have same : setResetPin true s = s := by rw [← held]; exact setResetPin_same s
    simp [held, same]

/-- Settles O3: the halt as one record update. -/
theorem resetAndPowerLossEndEverything : Obligations.ResetAndPowerLossEndEverything := by
  intro s c phase h
  refine ⟨_, exec_halts h, ?_⟩
  rw [haltPart_eq]
  refine ⟨rfl, rfl, rfl, rfl, rfl, rfl, rfl, rfl, rfl, rfl, rfl, rfl, fun idle => ?_⟩
  exact congrArg (·.store.areas) (cutWrite_none (s := setResetPin (s.control.resetPin || decide (c = .resetAsserted)) s) idle)

/-! ### A write cut off (R25) -/

theorem byteAt_tornArea (free : Nat) (old new : List Byte) {i : Nat} (inside : i < 44) :
    byteAt (tornArea free old new) i = if Config.tornByteIsNew free i then byteAt new i else byteAt old i := by
  simp [byteAt, tornArea, inside]

/-- A command of supply and reset that leaves the areas and the write as a cut leaves them. -/
theorem cut_leaves_mixture {s t : State} {w : WriteInFlight} (write : s.store.write = some w)
    (areas : t.store.areas = (cutWrite s).store.areas) :
    (∀ i < 44, byteAt (areaOf t.store.areas w.shot) i = byteAt (areaOf s.store.areas w.shot) i ∨
        byteAt (areaOf t.store.areas w.shot) i = byteAt (storedForm w.content) i) ∧
      ∀ n, n ≠ w.shot → areaOf t.store.areas n = areaOf s.store.areas n := by
  have cut : t.store.areas =
      writeArea w.shot (tornArea s.free (areaOf s.store.areas w.shot) (storedForm w.content)) s.store.areas := by
    simp [areas, cutWrite, write]
  refine ⟨fun i inside => ?_, fun n other => ?_⟩
  · rw [cut, areaOf_writeArea, if_pos rfl, byteAt_tornArea _ _ _ inside]
    split
    · exact .inr rfl
    · exact .inl rfl
  · rw [cut, areaOf_writeArea, if_neg other]

/-- The four commands of supply and reset end a write by cutting it (R25). -/
theorem exec_cuts {s : State} {c : Instr} (supplied : s.control.phase ≠ .unpowered)
    (which : c = .powerOn ∨ c = .pinReset ∨ c = .resetAsserted ∨ c = .powerLoss) :
    ∃ t, exec c s = .next t ∧ t.store.write = none ∧ t.bus.reportFifo.length ≤ s.bus.reportFifo.length ∧
      t.store.areas = (cutWrite s).store.areas := by
  have start : ∃ t, Host.Outcome.next (startSequence s) = (.next t : Host.Outcome State Fault Refusal) ∧
      t.store.write = none ∧ t.bus.reportFifo.length ≤ s.bus.reportFifo.length ∧
      t.store.areas = (cutWrite s).store.areas := ⟨_, rfl, rfl, Nat.zero_le _, rfl⟩
  have halt : ∀ phase : Phase, ((c = .resetAsserted ∧ s.control.phase ≠ .unpowered ∧ phase = .heldInReset) ∨
      (c = .powerLoss ∧ phase = .unpowered) ∨ (c = .powerOn ∧ s.control.resetPin = true ∧ phase = .heldInReset)) →
      ∃ t, exec c s = .next t ∧ t.store.write = none ∧ t.bus.reportFifo.length ≤ s.bus.reportFifo.length ∧
        t.store.areas = (cutWrite s).store.areas := by
    intro phase how
    refine ⟨_, exec_halts how, ?_⟩
    rw [haltPart_eq]
    refine ⟨rfl, le_rfl, ?_⟩
    simp only [cutWrite, setResetPin_store, setResetPin_free]
    cases s.store.write <;> rfl
  rcases which with rfl | rfl | rfl | rfl
  · by_cases held : s.control.resetPin = true
    · exact halt _ (.inr (.inr ⟨rfl, held, rfl⟩))
    · show ∃ t, Host.Outcome.next (if s.control.resetPin = true then haltPart .heldInReset s else startSequence s) = _ ∧ _
      rw [if_neg held]
      exact start
  · show ∃ t, Host.Outcome.next (if s.control.phase = .unpowered then setResetPin false s else startSequence s) = _ ∧ _
    rw [if_neg supplied]
    exact start
  · exact halt _ (.inl ⟨rfl, supplied, rfl⟩)
  · exact halt _ (.inr (.inl ⟨rfl, rfl⟩))

/-- Settles O4: each of the four commands ends the write by `cutWrite`, whose area is torn byte by byte. -/
theorem cutWriteLeavesMixture : Obligations.CutWriteLeavesMixture := by
  intro s c w write supplied which
  obtain ⟨t, run, ended, reports, areas⟩ := exec_cuts supplied which
  exact ⟨t, run, ended, reports, cut_leaves_mixture write areas⟩

/-! ### The configuration check (R176, R177) -/

/-- Settles O5: fewer than three abandons leave the image as it was read, three make it unreadable. -/
theorem configurationCheckHoldsValues : Obligations.ConfigurationCheckHoldsValues := by
  intro s straps image reading
  have check : exec (.configurationCheck straps image) s =
      .next { s with
        control := { s.control with
          phase := .checkingStore, number := straps.toNat
          config := checkConfiguration straps.toNat (imageRead s image)
          configBadPin := (checkConfiguration straps.toNat (imageRead s image)).isNone } } := by
    show Host.Outcome.next (if s.control.phase = .readingConfiguration then _ else s) = _
    rw [if_pos reading]
  refine ⟨fun few => ⟨?_, ?_⟩, fun three => ?_⟩
  · show Host.Outcome.next (if s.control.phase = .readingConfiguration then _ else s) = _
    rw [if_pos reading, transferLimit, Nat.min_eq_right few]
  · rw [check, imageRead, transferLimit, if_neg (Nat.not_le.mpr few)]
  · rw [check, imageRead, transferLimit, if_pos three, checkConfiguration_unread]
    rfl

theorem reset_withinCapacity : withinCapacity State.reset := by simp [withinCapacity, State.reset]
theorem reset_distinctNames : distinctNames State.reset := by simp [distinctNames, State.reset]
theorem reset_rateInRange : rateInRange State.reset := by simp [rateInRange, configOf, noConfiguration, State.reset]
theorem reset_recurWithinSticky : recurWithinSticky State.reset := fun c => by simp [State.reset]
theorem reset_outputsRight :
    driveEnableRight State.reset ∧ stationTimersRight State.reset ∧ statusPinsRight State.reset ∧ resetPinRight State.reset := by
  simp [driveEnableRight, stationTimersRight, statusPinsRight, resetPinRight, State.reset]
theorem reset_peersRight : peersRight State.reset := by simp [peersRight, State.reset]
theorem reset_floorAgreement : floorAgreement State.reset := by
  simp [floorAgreement, floorAgreement.startsEmpty, State.reset]

/-- Settles O52: every field that an invariant reads has its reset value. -/
theorem resetMeetsTheInvariants : Obligations.ResetMeetsTheInvariants := by
  obtain ⟨enable, timers, status, pin⟩ := reset_outputsRight
  exact ⟨⟨rfl, nofun⟩, reset_withinCapacity, reset_distinctNames, reset_rateInRange, reset_recurWithinSticky, fun _ => rfl,
    enable, timers, status, pin, reset_peersRight, reset_floorAgreement⟩

end Sys2Proof.Machine
end

section
/-! The requests taken from the cue station that one block answers at once: the spent condition ends, and the request acts. -/
namespace Sys2Proof.Machine

/-- A request taken is handed to its block with the spent condition ended (R142, R152). -/
theorem next_taken {h : Header} {s : State} (taken : takenFromCue h s) (f : State → State) :
    (Host.Outcome.next (heardFromCue h f s) : Host.Outcome State Fault Refusal) = .next (f (endSpent s)) := by
  obtain ⟨hearing, other, cue, toUs⟩ := taken
  rw [heardFromCue_taken h f s hearing other cue toUs]

/-- A frame heard from another station (R152). -/
theorem next_heard {h : Header} {s : State} (hearing : hears s) (other : fromOther h s) (f : State → State) :
    (Host.Outcome.next (heard h f s) : Host.Outcome State Fault Refusal) = .next (f (endSpent s)) := by
  rw [heard_other h f s hearing other]

/-- An event while the part hears. -/
theorem next_hearing {s : State} (hearing : hears s) (f : State → State) :
    (Host.Outcome.next (whenHearing f s) : Host.Outcome State Fault Refusal) = .next (f s) := by
  rw [whenHearing_on f s hearing]

/-! ### Store requests (R18 to R23, R26) -/

theorem contains_iff_mem_corrupt (s : State) (n : Nat) : s.store.corrupt.contains n = false ↔ n ∉ s.store.corrupt := by
  simp

theorem whileOnBus_on {s : State} (on : onBus s = true) (f : State → State) : whileOnBus f s = f s := if_pos on

theorem writeUnlessSame_busy {s : State} {shot : Byte} {content : Record} (busy : s.store.write ≠ none) :
    writeUnlessSame shot content s = pushReport (.store shot .busy) s := by
  simp [writeUnlessSame, Option.isSome_iff_ne_none.mpr busy, reportStore]

theorem writeUnlessSame_same {s : State} {shot : Byte} {content : Record} (idle : s.store.write = none)
    (same : recordOf s.store shot.toNat = content) (sound : shot.toNat ∉ s.store.corrupt) :
    writeUnlessSame shot content s = pushReport (.store shot .unchanged) s := by
  simp [writeUnlessSame, idle, same, sound, reportStore]

theorem writeUnlessSame_differs {s : State} {shot : Byte} {content : Record} (idle : s.store.write = none)
    (differs : recordOf s.store shot.toNat ≠ content ∨ shot.toNat ∈ s.store.corrupt) :
    writeUnlessSame shot content s = { s with store := { s.store with write := some ⟨shot.toNat, content⟩ } } := by
  have go : ¬(recordOf s.store shot.toNat = content ∧ s.store.corrupt.contains shot.toNat = false) := by
    rw [contains_iff_mem_corrupt]
    exact fun ⟨same, sound⟩ => differs.elim (absurd same) (absurd · sound)
  rw [writeUnlessSame, if_neg (by simp [idle]), if_neg go, startWrite]

/-- A STORE_SHOT with a good number and body goes on to the write. -/
theorem storeShot_good {s : State} {shot : Byte} {body : RecordBody} (number : shot.toNat ≤ 127)
    (label : labelPrintable body.label = true) (sound : bodySound body = true) :
    storeShot shot body s = writeUnlessSame shot (.valid (bodyContent body)) s := by
  simp [storeShot, lastShot, Nat.not_lt.mpr number, label, sound]

theorem captureShot_good {s : State} {shot : Byte} {label : List Byte} (number : shot.toNat ≤ 127)
    (printable : labelPrintable label = true) (idle : s.profile.motion = .idle) :
    captureShot shot label s = writeUnlessSame shot (.valid (capturedContent label s)) s := by
  simp [captureShot, lastShot, Nat.not_lt.mpr number, printable, idle]

theorem eraseShot_good {s : State} {shot : Byte} (number : shot.toNat ≤ 127) :
    eraseShot shot s = writeUnlessSame shot .empty s := by
  simp [eraseShot, lastShot, Nat.not_lt.mpr number]

/-- A store request taken on the bus. -/
theorem next_storeRequest {h : Header} {s : State} (taken : takenFromCue h s) (on : onBus s = true) (f : State → State) :
    (Host.Outcome.next (heardFromCue h (whileOnBus f) s) : Host.Outcome State Fault Refusal) = .next (f (endSpent s)) := by
  rw [next_taken taken, whileOnBus_on (s := endSpent s) on]

/-- Settles O31: each request passes its tests and starts its write. -/
theorem storeRequestsStartTheWrite : Obligations.StoreRequestsStartTheWrite := by
  intro s h shot taken on number idle writes differs
  have start : ∀ {f : State → State} {content : Record}, f (endSpent s) = writeUnlessSame shot content (endSpent s) →
      differs content → (Host.Outcome.next (heardFromCue h (whileOnBus f) s) : Host.Outcome State Fault Refusal) =
        .next (writes content) := by
    intro f content tests differ
    rw [next_storeRequest taken on, tests, writeUnlessSame_differs (s := endSpent s) idle differ]
    rfl
  refine ⟨fun body label sound differ => ?_, ?_, fun differ => ?_⟩
  · exact start (storeShot_good number label sound) differ
  · intro label text still content differ
    exact start (captureShot_good (s := endSpent s) number text still) differ
  · exact start (eraseShot_good number) differ

/-- Settles O32: the tests in the order of R19 to R21, each failing one with its report. -/
theorem storeRequestsReportTheOutcome : Obligations.StoreRequestsReportTheOutcome := by
  intro s h shot taken on reports same
  have report : ∀ {f : State → State} {o : StoreOutcome}, f (endSpent s) = pushReport (.store shot o) (endSpent s) →
      (Host.Outcome.next (heardFromCue h (whileOnBus f) s) : Host.Outcome State Fault Refusal) = .next (reports o) := by
    intro f o tests
    rw [next_storeRequest taken on, tests]
  have unchanged : ∀ {content : Record}, same content →
      writeUnlessSame shot content (endSpent s) = pushReport (.store shot .unchanged) (endSpent s) :=
    fun ⟨idle, stored, sound⟩ => writeUnlessSame_same (s := endSpent s) idle stored sound
  refine ⟨fun outside => ⟨fun body => report ?_, fun label => report ?_, report ?_⟩, fun number => ⟨fun body => ⟨?_, ?_⟩,
    fun label => ⟨?_, ?_⟩, fun busy => report ?_, fun stored => report ?_⟩⟩
  · rw [storeShot, lastShot, if_pos outside, reportStore]
  · rw [captureShot, lastShot, if_pos outside, reportStore]
  · rw [eraseShot, lastShot, if_pos outside, reportStore]
  · intro bad
    refine report ?_
    rw [storeShot, lastShot, if_neg (Nat.not_lt.mpr number), if_pos (by rcases bad with bad | bad <;> simp [bad]), reportStore]
  · intro label sound
    have go := storeShot_good (s := endSpent s) number label sound
    exact ⟨fun busy => report (go.trans (writeUnlessSame_busy busy)), fun stored => report (go.trans (unchanged stored))⟩
  · intro bad
    refine report ?_
    rw [captureShot, lastShot, if_neg (Nat.not_lt.mpr number), if_pos (by simp [bad]), reportStore]
  · intro printable
    refine ⟨fun moves => report ?_, fun still => ?_⟩
    · rw [captureShot, lastShot, if_neg (Nat.not_lt.mpr number), if_neg (by simp [printable]),
        if_pos (show (endSpent s).profile.motion ≠ .idle from moves), reportStore]
    · have go := captureShot_good (s := endSpent s) number printable still
      exact ⟨fun busy => report (go.trans (writeUnlessSame_busy busy)), fun stored => report (go.trans (unchanged stored))⟩
  · rw [eraseShot_good number, writeUnlessSame_busy (s := endSpent s) busy]
  · rw [eraseShot_good number, unchanged stored]

/-- Settles O33: the clamped count, case by case. -/
theorem readShotReplacesTheCursor : Obligations.ReadShotReplacesTheCursor := by
  intro s h first count taken on
  have clamp : max 1 (min 8 count.toNat) =
      if count.toNat = 0 then 1 else if 8 < count.toNat then 8 else count.toNat := by split_ifs <;> omega
  refine (next_storeRequest taken on (readShot first count)).trans ?_
  simp only [readShot, readCursor, lastShot, clamp, endSpent]

/-! ### Raises and CLEAR_FAULTS (R163 to R171) -/

/-- Settles O35: the raise as one record update. -/
theorem raiseIsReportedOnce : Obligations.RaiseIsReportedOnce := by
  intro s c name t reported
  have flags : t.faults.get c = ⟨true, (s.faults.get c).sticky⟩ := by simp [t, flagsAfterRaise_eq]
  have changed : decide (flagsAfterRaise (s.faults.get c) ≠ s.faults.get c) = decide (s.faults.get c ≠ ⟨true, true⟩) := by
    rw [flagsAfterRaise_eq]
    rcases s.faults.get c with ⟨sticky, recur⟩
    cases sticky <;> cases recur <;> decide
  refine ⟨flags, fun d other => by simp [t, other], ?_, ?_, ?_, ?_, raiseFlags_control c name s, raiseFlags_cues c name s,
    raiseFlags_claims c name s, raiseFlags_profile c name s, raiseFlags_port c name s⟩
  · simp only [t, raiseFlags_eq, busAfterRaise_stateMarker, changed]
  · rintro ⟨clear, unmasked⟩ room
    simp [t, raiseFlags_eq, busAfterRaise, busAfterReport, clear, unmasked, room]
  · rintro ⟨clear, unmasked⟩ full
    simp [t, raiseFlags_eq, busAfterRaise, busAfterReport, clear, unmasked, Nat.not_lt.mpr full]
  · intro silent
    have silent : ((s.faults.get c).sticky || (settingOf s c).masked) = true := by
      by_contra on
      simp only [Bool.or_eq_true, not_or, Bool.not_eq_true] at on
      exact silent on
    simp [t, raiseFlags_eq, busAfterRaise, silent]

theorem clearFlags_eq (classes : BitVec 16) (s : State) :
    clearFlags classes s = { s with
      faults := clearClasses s.faults (inClassSet classes)
      bus := { s.bus with
        stateMarker := s.bus.stateMarker || (onBus s && decide (clearClasses s.faults (inClassSet classes) ≠ s.faults)) } } := by
  unfold clearFlags
  by_cases same : clearClasses s.faults (inClassSet classes) = s.faults
  · simp [same]
  · simp [same, setMarker_eq, onBus]

theorem stopFlagSet_eq_false_iff (s : State) :
    stopFlagSet s = false ↔ ∀ c, (settingOf s c).severity = .stop → (s.faults.get c).sticky = false := by
  rw [← Bool.not_eq_true, stopFlagSet_iff]
  simp only [isStop, beq_iff_eq, not_exists, not_and, Bool.not_eq_true]

/-- Settles O36: the flags cleared, and the return to ACTIVE by R171's conditions. -/
theorem clearFaultsAndReturnToActive : Obligations.ClearFaultsAndReturnToActive := by
  intro s h classes taken cleared free
  have run : exec (.clearFaults h classes) s = .next (takeClearFaults classes (endSpent s)) := next_taken taken _
  have flags : (clearFlags classes (endSpent s)).faults = cleared := by rw [clearFlags_eq]; rfl
  have test : free ↔ (clearFlags classes (endSpent s)).control.station = .faultStop ∧
      stopFlagSet (clearFlags classes (endSpent s)) = false ∧
      (clearFlags classes (endSpent s)).profile.motion = .idle := by
    rw [stopFlagSet_eq_false_iff, flags, clearFlags_eq]
    exact ⟨fun ⟨a, b, c⟩ => ⟨a, c, b⟩, fun ⟨a, c, b⟩ => ⟨a, b, c⟩⟩
  refine ⟨fun may => ?_, fun stays => ?_⟩
  · rw [run, takeClearFaults, if_pos (test.mp may), returnToActive_eq, clearFlags_eq]
    rfl
  · rw [run, takeClearFaults, if_neg (mt test.mpr stays), clearFlags_eq]
    rfl

end Sys2Proof.Machine
end

section
/-! Closed forms of the operations on motion and claims, and the requests and events that act through them alone: HOLD, RESUME,
RESTART, transmission start and abandon, frames that no block takes, replies that are discarded, and a servo period at rest. -/
namespace Sys2Proof.Machine

/-! ### Closed forms -/

/-- The bus interface with the STATE marker set, if at all. -/
def busMarked (marks : Bool) (b : BusInterface) : BusInterface := { b with stateMarker := b.stateMarker || marks }

@[simp] theorem busMarked_false (b : BusInterface) : busMarked false b = b := by simp [busMarked]
@[simp] theorem busMarked_stateMarker (m : Bool) (b : BusInterface) : (busMarked m b).stateMarker = (b.stateMarker || m) := rfl
@[simp] theorem busMarked_readyFifo (m : Bool) (b : BusInterface) : (busMarked m b).readyFifo = b.readyFifo := rfl
@[simp] theorem busMarked_reportFifo (m : Bool) (b : BusInterface) : (busMarked m b).reportFifo = b.reportFifo := rfl
@[simp] theorem busMarked_transmission (m : Bool) (b : BusInterface) : (busMarked m b).transmission = b.transmission := rfl

theorem setOwn_eq (own : List OwnClaim) (s : State) :
    setOwn own s = { s with
      claims := { s.claims with own := own }
      bus := busMarked (decide (own ≠ s.claims.own) && onBus s) s.bus } := by
  unfold setOwn
  by_cases same : own = s.claims.own
  · simp [same]
  · simp [same, setMarker_eq, onBus, busMarked]

theorem setMotion_eq (m : MotionState) (s : State) :
    setMotion m s = { s with
      profile := { s.profile with motion := m }
      bus := busMarked (decide (s.profile.motion ≠ m) && onBus s) s.bus } := by
  unfold setMotion
  by_cases same : s.profile.motion = m
  · subst same
    simp
  · simp [same, setMarker_eq, onBus, busMarked]

theorem restartBlanking_eq (s : State) :
    restartBlanking s = { s with port := { s.port with blanking := freshWindow s } } := rfl

/-- The blanking windows after a change of the rate target to 0: restarted by a move whose target was another (R128). -/
def blankingAfterStop (s : State) : Option Nat :=
  if s.profile.motion = .idle ∨ rateTarget s = 0 then s.port.blanking else freshWindow s

theorem configOf_eq {s t : State} (config : t.control.config = s.control.config) : configOf t = configOf s := by
  unfold configOf
  rw [config]

/-- A change that takes the rate target of a move down to 0 (R115, R128). -/
theorem retarget_zero {s t : State} (motion : t.profile.motion = .idle ↔ s.profile.motion = .idle)
    (zero : rateTarget t = 0) (config : t.control.config = s.control.config) (blanking : t.port.blanking = s.port.blanking) :
    retarget s t = { t with port := { t.port with blanking := blankingAfterStop s } } := by
  have window : freshWindow t = freshWindow s := by
    unfold freshWindow
    rw [configOf_eq config]
  unfold retarget blankingAfterStop
  rw [zero, restartBlanking_eq, window]
  by_cases idle : s.profile.motion = .idle
  · simp [moveExists, idle, ← blanking]
  · have moves : t.profile.motion ≠ .idle := mt motion.mp idle
    by_cases same : rateTarget s = 0
    · simp [same, ← blanking]
    · simp [moveExists, idle, moves, same]

/-- A stop begins, as one record update (R123). -/
theorem beginStop_eq {s : State} (kind : StopKind) (moves : s.profile.motion ≠ .idle) :
    beginStop kind s = { s with
      profile := { s.profile with motion := .stopping, stopKind := some kind }
      bus := busMarked (decide (s.profile.motion ≠ .stopping) && onBus s) s.bus
      port := { s.port with blanking := blankingAfterStop s } } := by
  unfold beginStop
  rw [setMotion_eq]
  exact retarget_zero (by simp [moves]) (by simp [rateTarget]) rfl rfl

/-! ### HOLD and RESUME (R121) -/

theorem takeHold_same {s : State} (hold : s.profile.hold = true) : takeHold s = s := by
  simp [takeHold, changeHold, hold]

theorem takeHold_changes {s : State} (on : onBus s = true) (hold : s.profile.hold = false) :
    takeHold s = { s with
      profile := { s.profile with hold := true }
      bus := { s.bus with stateMarker := true }
      port := { s.port with blanking := blankingAfterStop s } } := by
  have on' : onBus { s with profile := { s.profile with hold := true } } = true := on
  rw [takeHold, if_pos on, changeHold, if_neg (by simp [hold]), setMarker_eq, on', Bool.or_true]
  exact retarget_zero Iff.rfl (by simp [rateTarget]) rfl rfl

theorem takeResume_same {s : State} (hold : s.profile.hold = false) : takeResume s = s := by
  simp [takeResume, hold]

/-- A RESUME with the flag set, but for the blanking windows. -/
theorem takeResume_changes {s : State} (on : onBus s = true) (hold : s.profile.hold = true) :
    ∃ window, takeResume s = { s with
      profile := { s.profile with
        hold := false, motion := if s.profile.motion = .held then .running else s.profile.motion }
      bus := { s.bus with stateMarker := true }
      port := { s.port with blanking := window } } := by
  let t : State := { s with profile := { s.profile with hold := false }, bus := { s.bus with stateMarker := true } }
  have change : ∃ window, changeHold false s = { t with port := { t.port with blanking := window } } := by
    have on' : onBus { s with profile := { s.profile with hold := false } } = true := on
    rw [changeHold, if_neg (by simp [hold]), setMarker_eq, on', Bool.or_true]
    unfold retarget
    split
    · exact ⟨_, restartBlanking_eq _⟩
    · exact ⟨_, rfl⟩
  obtain ⟨window, eq⟩ := change
  refine ⟨window, ?_⟩
  rw [takeResume, if_pos ⟨on, hold⟩, eq]
  by_cases held : s.profile.motion = .held
  · simp [t, held, setMotion_eq, busMarked]
  · simp [t, held]

/-- Settles O30. -/
theorem holdAndResumeSetTheFlag : Obligations.HoldAndResumeSetTheFlag := by
  intro s h taken on
  have onSpent : onBus (endSpent s) = true := on
  have holds : exec (.hold h) s = .next (takeHold (endSpent s)) := next_taken taken _
  have resumes : exec (.resume h) s = .next (takeResume (endSpent s)) := next_taken taken _
  refine ⟨fun hold => ?_, fun hold => ?_, fun hold => ?_, fun hold => ?_⟩
  · rw [holds, takeHold_same (s := endSpent s) hold]
  · rw [resumes, takeResume_same (s := endSpent s) hold]
  · rw [holds, takeHold_changes onSpent hold]
    rfl
  · obtain ⟨window, eq⟩ := takeResume_changes onSpent hold
    refine ⟨_, resumes.trans (congrArg _ eq), ?_⟩
    exact ⟨rfl, rfl, rfl, rfl, rfl, rfl, rfl, rfl, rfl, rfl, rfl, rfl⟩

/-! ### RESTART (R182, R183) -/

theorem takeRestart_offline {s : State} (off : s.control.station = .offline) : takeRestart s = s := by
  rw [takeRestart, if_pos off]

theorem takeRestart_idle {s : State} (online : s.control.station ≠ .offline) (idle : s.profile.motion = .idle) :
    takeRestart s = restartEffect s := by
  rw [takeRestart, if_neg online, idle]

theorem takeRestart_stopping {s : State} (online : s.control.station ≠ .offline) (stopping : s.profile.motion = .stopping) :
    takeRestart s = { s with control := { s.control with restartPending := true } } := by
  rw [takeRestart, if_neg online, stopping]

/-- A RESTART of a move running or held begins its stop and waits (R182). -/
theorem takeRestart_moving {s : State} (online : s.control.station ≠ .offline)
    (moving : s.profile.motion = .running ∨ s.profile.motion = .held) :
    takeRestart s = { s with
      control := { s.control with restartPending := true }
      cues := s.cues.modify 0 fun e => { e with ending := some (e.ending.getD .cancelled) }
      profile := { s.profile with motion := .stopping, stopKind := some .restart }
      bus := { s.bus with stateMarker := s.bus.stateMarker || onBus s }
      port := { s.port with blanking := blankingAfterStop s } } := by
  have moves : (setHeadEnding .cancelled s).profile.motion ≠ .idle := by
    rcases moving with m | m <;> simp [setHeadEnding, m]
  have fresh : decide ((setHeadEnding .cancelled s).profile.motion ≠ .stopping) = true := by
    rcases moving with m | m <;> simp [setHeadEnding, m]
  have stops : takeRestart s =
      { beginStop .restart (setHeadEnding .cancelled s) with
        control := { (beginStop .restart (setHeadEnding .cancelled s)).control with restartPending := true } } := by
    rw [takeRestart, if_neg online]
    rcases moving with m | m <;> rw [m]
  rw [stops, beginStop_eq _ moves, fresh, Bool.true_and]
  rfl

/-- Settles O43: a RESTART by station state and motion. -/
theorem restartTakesEffectOrBeginsAStop : Obligations.RestartTakesEffectOrBeginsAStop := by
  intro s h taken
  have run : exec (.restart h) s = .next (takeRestart (endSpent s)) := next_taken taken _
  refine ⟨fun off => ?_, fun online idle => ?_, fun online stopping => ?_, fun e rest online moving list => ?_⟩
  · rw [run, takeRestart_offline (s := endSpent s) off]
  · rw [run, takeRestart_idle (s := endSpent s) online idle]
    rfl
  · rw [run, takeRestart_stopping (s := endSpent s) online stopping]
    rfl
  · refine ⟨_, run, ?_⟩
    rw [takeRestart_moving (s := endSpent s) online moving]
    exact ⟨rfl, rfl, by simp [list], rfl, rfl, rfl, rfl, rfl, rfl, rfl, rfl, rfl⟩

/-! ### Frames that no block takes (R142, R152) -/

theorem whileOnBus_off {s : State} (off : onBus s = false) (f : State → State) : whileOnBus f s = s := by
  simp [whileOnBus, off]

theorem fromCueStation_not {h : Header} {s : State} (not : sourceOf h ≠ 0 ∨ addressed h s = false) (f : State → State) :
    fromCueStation h f s = s := by
  rw [fromCueStation, if_neg]
  rintro ⟨cue, toUs⟩
  rcases not with not | not
  · exact not cue
  · simp [toUs] at not

/-- A block that leaves a station off the bus as it is: the requests of R18, R34 and R121. -/
theorem onBusRequest_exec {c : Instr} {h : Header} {s : State} (request : onBusRequest c = true)
    (frame : frameHeader c = some h) (off : s.control.station = .offline ∨ s.control.station = .joining) :
    ∃ f : State → State, exec c s = .next (heardFromCue h f s) ∧ f (endSpent s) = endSpent s := by
  have offBus : onBus (endSpent s) = false := by rcases off with off | off <;> simp [onBus, off]
  cases c <;> simp only [onBusRequest, Bool.false_eq_true] at request <;> cases frame
  case cue p =>
    refine ⟨_, rfl, ?_⟩
    unfold takeCue
    rcases off with off | off <;> split <;> simp [off]
  case storeShot | captureShot | eraseShot | readShot => exact ⟨_, rfl, whileOnBus_off offBus _⟩
  case take => exact ⟨_, rfl, by simp [takeTake, offBus]⟩
  case groupTake => exact ⟨_, rfl, by simp [takeGroupTake, offBus]⟩
  case cancel => exact ⟨_, rfl, by simp [takeCancel, offBus]⟩
  case cancelAll => exact ⟨_, rfl, by simp [takeCancelAll, offBus]⟩
  case hold => exact ⟨_, rfl, by simp [takeHold, offBus]⟩
  case resume => exact ⟨_, rfl, by simp [takeResume, offBus]⟩

/-- A frame of a cue-station kind goes to the block that R142 guards. -/
theorem fromCueStationKind_exec {c : Instr} {h : Header} {s : State} (kind : fromCueStationKind c = true)
    (frame : frameHeader c = some h) : ∃ f : State → State, exec c s = .next (heardFromCue h f s) := by
  cases c <;> simp only [fromCueStationKind, frameHeader, Option.isSome_none, Bool.false_eq_true] at kind <;> cases frame <;>
    exact ⟨_, rfl⟩

theorem takeReady_ignored {n : Nat} {p : ReadyPayload} {s : State}
    (none : ∀ r ∈ s.groups.records, r.group = p.group → r.state ≠ .collecting ∨ ∀ m ∈ r.slots, m.number ≠ n) :
    takeReady n p s = s := by
  unfold takeReady
  split
  · rfl
  · rename_i r found
    have member : r ∈ s.groups.records := List.mem_of_find?_eq_some found
    have named : r.group = p.group := by simpa using List.find?_some found
    rw [if_neg]
    rcases none r member named with other | other
    · simp [other]
    · simp only [Bool.and_eq_true, List.any_eq_true, beq_iff_eq]
      rintro ⟨⟨m, slot, number⟩, _⟩
      exact other m slot number

/-- Settles O19. -/
theorem framesNotTakenOnlyEndSpent : Obligations.FramesNotTakenOnlyEndSpent := by
  intro s h c hearing other
  refine ⟨rfl, next_heard hearing other id, fun kind frame not => ?_, fun request frame off => ?_, fun w source => ?_,
    fun p number => ?_, fun p none => ?_⟩
  · obtain ⟨f, run⟩ := fromCueStationKind_exec (s := s) kind frame
    rw [run, heardFromCue, next_heard hearing other, fromCueStation_not (s := endSpent s) not]
  · obtain ⟨f, run, same⟩ := onBusRequest_exec request frame off
    rw [run, heardFromCue, next_heard hearing other, fromCueStation, same, ite_self]
  · refine (next_heard hearing other _).trans ?_
    rw [if_neg (show sourceOf h ≠ tallyStation from source)]
  · refine (next_heard hearing other _).trans ?_
    rw [if_neg]
    rcases number with number | number <;> simp [number]
  · exact (next_heard hearing other _).trans (congrArg _ (takeReady_ignored (s := endSpent s) none))

end Sys2Proof.Machine
end

section
/-! The drive link while no move runs (R4, R9, R178), and the bus interface's own events (R145 to R153). -/
namespace Sys2Proof.Machine

/-! ### Replies discarded (R4) -/

theorem axisOfIndex_index (a : Axis) : axisOfIndex a.index = some a := by cases a <;> rfl

theorem axisOfIndex_none {n : Nat} (outside : 6 < n) : axisOfIndex n = none :=
  List.getElem?_eq_none (show Axis.all.length ≤ n from outside)

theorem exists_axis {n : Nat} (inside : n ≤ 6) : ∃ a : Axis, n = a.index := by
  have all : ∀ m < 7, ∃ a ∈ Axis.all, m = a.index := by decide
  obtain ⟨a, _, index⟩ := all n (Nat.lt_succ_of_le inside)
  exact ⟨a, index⟩

theorem takeReply_badCheck {r : DriveReply} {s : State} (bad : r.check ≠ replyCheck r) : takeReply r s = s := by
  rw [takeReply, if_neg bad]

theorem takeReply_badIndex {r : DriveReply} {s : State} (outside : 6 < r.index.toNat) : takeReply r s = s := by
  rw [takeReply, axisOfIndex_none outside, ite_self]

/-- A good reply while an exchange is open. -/
theorem takeReply_exchange {r : DriveReply} {s : State} {a : Axis} {x : Exchange} (good : r.check = replyCheck r)
    (index : r.index.toNat = a.index) (exchange : s.port.exchange = some x) :
    takeReply r s = replyInExchange a r x s := by
  simp only [takeReply, if_pos good, index, axisOfIndex_index, exchange]

/-- A good reply with no exchange open. -/
theorem takeReply_noExchange {r : DriveReply} {s : State} {a : Axis} (good : r.check = replyCheck r)
    (index : r.index.toNat = a.index) (none : s.port.exchange = none) :
    takeReply r s = if s.control.readEnded then s else replyInRead a r s := by
  simp only [takeReply, if_pos good, index, axisOfIndex_index, none]

/-- Settles O9: the tests of R4 in their order. -/
theorem repliesDiscarded : Obligations.RepliesDiscarded := by
  intro s r hearing discard
  refine (next_hearing hearing _).trans (congrArg _ ?_)
  by_cases good : r.check = replyCheck r
  case neg => exact takeReply_badCheck good
  by_cases outside : 6 < r.index.toNat
  case pos => exact takeReply_badIndex outside
  rcases discard with bad | out | ⟨x, a, p, exchange, index, answered⟩ | ⟨a, none, reading, index, answered⟩ | ⟨none, ended⟩
  · exact absurd good bad
  · exact absurd out outside
  · rw [takeReply_exchange good index exchange, replyInExchange, answered]
  · rw [takeReply_noExchange good index none, reading, replyInRead, if_pos answered]
    rfl
  · obtain ⟨a, index⟩ := exists_axis (Nat.not_lt.mp outside)
    rw [takeReply_noExchange good index none, if_pos ended]

/-! ### A servo period with every reply in (R5, R7) -/

theorem missedReply_in {x : Exchange} {a : Axis} {s : State} (reply : x.replies.get a ≠ none) : missedReply x s a = s := by
  unfold missedReply
  split
  · rfl
  · contradiction

/-- With every reply in, closing the exchange raises nothing. -/
theorem closeExchange_in {x : Exchange} {s : State} (exchange : s.port.exchange = some x)
    (replies : ∀ a, x.replies.get a ≠ none) :
    closeExchange s = { s with port := { s.port with exchange := none, closed := some x } } := by
  have quiet : ∀ (l : List Axis) (t : State), l.foldl (missedReply x) t = t := by
    intro l
    induction l with
    | nil => exact fun _ => rfl
    | cons a l ih => exact fun t => by rw [List.foldl_cons, missedReply_in (replies a), ih]
  simp only [closeExchange, exchange, quiet]

/-- The profile generator's work at a servo period expiry. -/
def profileWork (s : State) : State :=
  match (countBlanking s).profile.plan with
  | some p => if moveExists (countBlanking s) then movePeriod p (countBlanking s) else countBlanking s
  | none => countBlanking s

theorem profileWork_idle {s : State} (idle : s.profile.motion = .idle) : profileWork s = countBlanking s := by
  unfold profileWork
  split
  · rw [if_neg]
    simp [moveExists, countBlanking, idle]
  · rfl

theorem profileWork_moving {s : State} {p : RunningPlan} (plan : s.profile.plan = some p) (moves : s.profile.motion ≠ .idle) :
    profileWork s = movePeriod p (countBlanking s) := by
  have exists_ : moveExists (countBlanking s) = true := by simp [moveExists, countBlanking, moves]
  unfold profileWork
  rw [show (countBlanking s).profile.plan = some p from plan]
  simp only [exists_, if_true]

/-- What the axis port makes of a servo period's end with every reply in: the exchange closed, the next one opened. -/
def nextExchange (x : Exchange) (before : PerAxis Position) (u : State) : State :=
  { u with port := { u.port with
      closed := some x
      exchange := some ⟨before, everyAxis none⟩
      requests := Axis.all.map fun a => .setpoint a (u.port.lastSetpoint.get a) } }

theorem servoPeriod_in {x : Exchange} {s : State} (exchange : (profileWork s).port.exchange = some x)
    (replies : ∀ a, x.replies.get a ≠ none) : servoPeriod s = nextExchange x s.port.lastSetpoint (profileWork s) := by
  have eq : servoPeriod s = openExchange s.port.lastSetpoint (closeExchange (profileWork s)) := rfl
  rw [eq, closeExchange_in exchange replies]
  rfl

theorem exec_servoPeriod {s : State} (hearing : hears s) (timer : s.port.servoTimer = true) :
    exec .servoPeriodExpiry s = .next (servoPeriod s) :=
  (next_hearing hearing _).trans (by rw [if_pos timer])

/-- Settles O12: with no move the period only counts the blanking windows and turns the exchange over. -/
theorem servoPeriodWithoutMoveResendsSetpoints : Obligations.ServoPeriodWithoutMoveResendsSetpoints := by
  intro s x hearing timer idle exchange replies
  have work : profileWork s = countBlanking s := profileWork_idle idle
  rw [exec_servoPeriod hearing timer, servoPeriod_in (x := x) (by rw [work]; exact exchange) replies, work]
  rfl

/-! ### The start-up position read (R9, R178) -/

theorem allAnswered_iff (s : State) : allAnswered s = true ↔ ∀ a, s.port.answered.get a = true := by
  simp [allAnswered, List.all_eq_true, Axis.mem_all]

theorem get_set_answered (p : PerAxis Bool) (a : Axis) :
    (∀ b, (p.set a true).get b = true) ↔ ∀ b, b ≠ a → p.get b = true := by
  constructor
  · exact fun all b other => (PerAxis.get_set_of_ne p true other).symm.trans (all b)
  · intro all b
    by_cases same : b = a
    · rw [same, PerAxis.get_set_self]
    · exact (PerAxis.get_set_of_ne p true same).trans (all b same)

/-- The state in which an answer of the position read has been recorded. -/
def answeredRead (a : Axis) (r : DriveReply) (s : State) : State :=
  { s with port := { s.port with
      lastActual := s.port.lastActual.set a r.position
      driveStatus := s.port.driveStatus.set a (driveStatusOf r.status)
      lastSetpoint := s.port.lastSetpoint.set a r.position
      answered := s.port.answered.set a true } }

theorem replyInRead_new {a : Axis} {r : DriveReply} {s : State} (new : s.port.answered.get a = false) :
    replyInRead a r s =
      if allAnswered (answeredRead a r s) then endPositionRead (answeredRead a r s) else answeredRead a r s := by
  rw [replyInRead, if_neg (by simp [new])]
  rfl

/-- The end of the position read: it ends, and the station may enter JOINING (R178). -/
theorem endPositionRead_cases (s : State) :
    ((∃ c, s.control.config = some c ∧ c.autoOnline = true) ∧ s.control.identityConflict = false ∧
        s.control.station = .offline ∧
        endPositionRead s = enterJoining { s with control := { s.control with readEnded := true } }) ∨
      (¬((∃ c, s.control.config = some c ∧ c.autoOnline = true) ∧ s.control.identityConflict = false ∧
        s.control.station = .offline) ∧
        endPositionRead s = { s with control := { s.control with readEnded := true } }) := by
  let t : State := { s with control := { s.control with readEnded := true } }
  have test : ((configOf t).autoOnline && mayGoOnline t) = true ↔
      (∃ c, s.control.config = some c ∧ c.autoOnline = true) ∧ s.control.identityConflict = false ∧
        s.control.station = .offline := by
    rw [Bool.and_eq_true, mayGoOnline_iff]
    cases config : s.control.config <;> simp [t, configOf, config, noConfiguration]
    tauto
  unfold endPositionRead
  dsimp only
  by_cases may : ((configOf t).autoOnline && mayGoOnline t) = true
  · obtain ⟨auto, clear, off⟩ := test.mp may
    exact .inl ⟨auto, clear, off, if_pos may⟩
  · exact .inr ⟨mt test.mpr may, if_neg may⟩

theorem driveStatusOf_eq {b : Byte} (given : b = 0x00 ∨ b = 0x01) :
    driveStatusOf b = if b = 0x01 then .fault else .ok := by
  rcases given with rfl | rfl <;> rfl

/-- Settles O8: an answer is recorded, and the last one ends the read. -/
theorem positionReadAsksUntilAnswered : Obligations.PositionReadAsksUntilAnswered := by
  intro s hearing reading
  refine ⟨?_, fun r a none good index status new => ?_⟩
  · refine (next_hearing hearing _).trans ?_
    rw [if_neg (by simp [reading])]
  · have run : exec (.driveReply r) s = .next (replyInRead a r s) := by
      refine (next_hearing hearing _).trans ?_
      rw [takeReply_noExchange good index none, reading]
      rfl
    have status : driveStatusOf r.status = if r.status = 0x01 then .fault else .ok := driveStatusOf_eq status
    have other : ∀ b, b ≠ a → (s.port.driveStatus.set a (driveStatusOf r.status)).get b = s.port.driveStatus.get b :=
      fun b ne => PerAxis.get_set_of_ne _ _ ne
    have all : allAnswered (answeredRead a r s) = true ↔ ∀ b, b ≠ a → s.port.answered.get b = true :=
      (allAnswered_iff _).trans (get_set_answered _ a)
    refine ⟨_, run, ?_⟩
    rw [replyInRead_new new]
    by_cases ends : allAnswered (answeredRead a r s) = true
    case neg =>
      rw [if_neg ends]
      exact ⟨rfl, rfl, by simpa [answeredRead] using status, other, rfl, rfl, rfl, rfl, rfl, rfl, rfl, rfl, rfl, fun _ => rfl,
        fun answered => absurd (all.mpr answered) ends⟩
    case pos =>
      have notAll : ¬∃ b, b ≠ a ∧ s.port.answered.get b = false := fun ⟨b, ne, un⟩ => by
        simp [all.mp ends b ne] at un
      rw [if_pos ends]
      rcases endPositionRead_cases (answeredRead a r s) with ⟨auto, clear, off, eq⟩ | ⟨fails, eq⟩ <;> rw [eq]
      · refine ⟨rfl, rfl, by simpa [answeredRead, enterJoining] using status, other, rfl, rfl, rfl, rfl, rfl, rfl, rfl, rfl, rfl,
          fun un => absurd un notAll, fun _ => ⟨rfl, fun _ => ⟨⟨fun _ => ⟨auto, clear⟩, fun _ => rfl⟩, .inl rfl⟩⟩⟩
      · refine ⟨rfl, rfl, by simpa [answeredRead] using status, other, rfl, rfl, rfl, rfl, rfl, rfl, rfl, rfl, rfl,
          fun un => absurd un notAll, fun _ => ⟨rfl, fun off => ⟨⟨fun joining => ?_, fun ⟨auto, clear⟩ => ?_⟩, .inr off⟩⟩⟩
        · have joining : s.control.station = .joining := joining
          simp [off] at joining
        · exact absurd ⟨auto, clear, off⟩ fails

/-! ### Transmission start (R145, R150, R151) -/

theorem startTransmission_waits {idle : Nat} {s : State}
    (waits : onBus s = false ∨ s.bus.spent = true ∨ s.bus.transmission ≠ none) : startTransmission idle s = s := by
  rw [startTransmission, if_neg]
  rintro ⟨on, fresh, free⟩
  rcases waits with off | spent | busy
  · simp [on] at off
  · simp [fresh] at spent
  · exact busy free

theorem startTransmission_nothing {idle : Nat} {s : State} (nothing : nextFrame s = none) : startTransmission idle s = s := by
  rw [startTransmission, nothing]
  split <;> rfl

/-- A free bus interface with a frame to send sends it once the gap has passed. -/
theorem startTransmission_frame {idle cls : Nat} {f : OutFrame} {s : State} (on : onBus s = true) (fresh : s.bus.spent = false)
    (free : s.bus.transmission = none) (frame : nextFrame s = some (cls, f)) :
    startTransmission idle s = if 8 + 32 * cls + s.control.number ≤ idle then beginTransmission f s else s := by
  rw [startTransmission, if_pos ⟨on, fresh, free⟩, frame]
  rfl

/-- Settles O48: the classes of R145 in order, each with its gap. -/
theorem transmissionStartSendsTheHighestClass : Obligations.TransmissionStartSendsTheHighestClass := by
  intro s idle hearing begins
  have run : exec (.transmissionStart idle) s = .next (startTransmission idle s) := next_hearing hearing _
  refine ⟨fun waits => by rw [run, startTransmission_waits waits], fun on fresh free => ?_⟩
  have sends : ∀ {cls : Nat} {f : OutFrame} {marker : Bool}, nextFrame s = some (cls, f) →
      (s.bus.stateMarker && !isStateFrame f) = marker → begins cls f marker := by
    rintro cls f marker frame rfl
    show exec (.transmissionStart idle) s = _
    rw [run, startTransmission_frame on fresh free frame]
    split <;> rfl
  refine ⟨fun r rest fifo => sends (by simp [nextFrame, fifo]) (by simp [isStateFrame]), fun ready marker => ?_,
    fun ready marker => ⟨fun r rest fifo => ?_, fun reports => ⟨fun none => ?_, fun some => ⟨fun out => ?_, ?_, ?_⟩⟩⟩⟩
  · exact sends (by simp [nextFrame, ready, marker, buildState]) (by simp [isStateFrame])
  · exact sends (by simp [nextFrame, ready, marker, fifo]) (by simp [marker])
  · rw [run, startTransmission_nothing (by simp [nextFrame, ready, marker, reports, none])]
  · exact sends (by simp [nextFrame, ready, marker, reports, some, buildShotData, lastShot, out]) (by simp [marker])
  · intro number empty
    exact sends (by simp [nextFrame, ready, marker, reports, some, buildShotData, lastShot, Nat.not_lt.mpr number, empty])
      (by simp [marker])
  · intro c number valid
    exact sends
      (by simp [nextFrame, ready, marker, reports, some, buildShotData, lastShot, Nat.not_lt.mpr number, valid, storedBody])
      (by simp [marker])

/-! ### Abandon, spent, heartbeat (R149, R152, R153) -/

/-- The bus interface right after an abandon, before the abandons are counted. -/
def abandoned (s : State) : State := { s with bus := { s.bus with transmission := none, driverEnable := false } }

theorem exec_abandon {s : State} {x : Transmission} (hearing : hears s) (sent : s.bus.transmission = some x) :
    exec .abandon s = .next (countAbandon (keepAbandoned x.frame (abandoned s))) := by
  refine (next_hearing hearing _).trans ?_
  simp only [abandonTransmission, sent]
  rfl

theorem keepAbandoned_report (r : Report) (s : State) : keepAbandoned (.report r) s = s := rfl
theorem keepAbandoned_shotData (n : Nat) (status : ShotDataStatus) (body : List Byte) (s : State) :
    keepAbandoned (.shotData n status body) s = s := rfl

theorem countAbandon_few {s : State} (few : s.bus.abandonCount < 15) :
    countAbandon s = { s with bus := { s.bus with abandonCount := s.bus.abandonCount + 1 } } := by
  rw [countAbandon, if_pos (show s.bus.abandonCount + 1 < contentionCount from Nat.succ_lt_succ few)]

/-- What keeping the abandoned frame changes: the STATE marker or the READY FIFO. -/
theorem keepAbandoned_only (f : OutFrame) (s : State) :
    ∃ marker fifo, keepAbandoned f s = { s with bus := { s.bus with stateMarker := marker, readyFifo := fifo } } := by
  unfold keepAbandoned
  split
  · exact ⟨_, _, setMarker_eq s⟩
  · split
    · exact ⟨s.bus.stateMarker, _, rfl⟩
    · exact ⟨s.bus.stateMarker, s.bus.readyFifo, rfl⟩
  · exact ⟨s.bus.stateMarker, s.bus.readyFifo, rfl⟩

/-- A raise only adds to the report FIFO. -/
theorem busAfterRaise_reports (c : FaultClass) (n : FaultName) (s : State) :
    s.bus.reportFifo <+: (busAfterRaise c n s).reportFifo := by
  unfold busAfterRaise
  dsimp only
  split
  · exact ⟨[], List.append_nil _⟩
  · rw [busAfterReport_reportFifo]
    split
    · exact ⟨_, rfl⟩
    · exact ⟨[], List.append_nil _⟩

/-- The sixteenth abandon in a row, at REPORT severity (R153). -/
theorem countAbandon_sixteenth {s : State} (sixteenth : s.bus.abandonCount = 15)
    (report : (settingOf s .busContention).severity = .report) :
    countAbandon s = raiseFlags .busContention .nothing { s with bus := { s.bus with abandonCount := 0 } } := by
  rw [countAbandon, sixteenth, if_neg (by decide)]
  have mild : isStop s .busContention = false := by simp [isStop, report]
  exact raise_flags_only _ _ _ (.inr mild)

theorem countAbandon_contention {s : State} (sixteenth : s.bus.abandonCount = 15) (free : s.bus.transmission = none)
    (report : (settingOf s .busContention).severity = .report) :
    ∃ b, countAbandon s = { s with
        bus := b, faults := s.faults.set .busContention ⟨true, (s.faults.get .busContention).sticky⟩ } ∧
      b.abandonCount = 0 ∧ b.transmission = none ∧ s.bus.reportFifo <+: b.reportFifo ∧ b.spent = s.bus.spent ∧
      b.cursor = s.bus.cursor := by
  rw [countAbandon_sixteenth sixteenth report, raiseFlags_eq, flagsAfterRaise_eq]
  refine ⟨_, rfl, by simp, ?_, busAfterRaise_reports _ _ { s with bus := { s.bus with abandonCount := 0 } }, by simp, by simp⟩
  have kept := busAfterRaise_transmission .busContention .nothing { s with bus := { s.bus with abandonCount := 0 } }
  simpa [free] using kept

/-- Settles O50: each frame's way back to its queue, then the count; the sixteenth abandon raises. -/
theorem abandonKeepsTheFrame : Obligations.AbandonKeepsTheFrame := by
  intro s hearing bus
  refine ⟨fun free => ?_, fun x sent few => ⟨fun f frame => ?_, fun r q rest frame fifo => ?_, fun r frame => ?_,
    fun n status body frame => ?_⟩, fun x sent sixteenth report => ?_, next_hearing hearing _, fun stopped => ?_,
    fun beats => ?_⟩
  · refine (next_hearing hearing _).trans ?_
    simp only [abandonTransmission, free]
  · rw [exec_abandon hearing sent, frame, keepAbandoned, setMarker_eq, countAbandon_few (by exact few)]
    rfl
  · rw [exec_abandon hearing sent, frame, keepAbandoned]
    have head : (abandoned s).bus.readyFifo = q :: rest := fifo
    cases orphan : q.orphan <;>
      simp only [head, orphan, List.head?_cons, Option.map_some, Option.getD_some, List.tail_cons, Bool.false_eq_true, if_false,
        if_true] <;>
      rw [countAbandon_few (by exact few)] <;> rfl
  · rw [exec_abandon hearing sent, frame, keepAbandoned_report, countAbandon_few (s := abandoned s) few]
    rfl
  · rw [exec_abandon hearing sent, frame, keepAbandoned_shotData, countAbandon_few (s := abandoned s) few]
    rfl
  · obtain ⟨marker, fifo, eq⟩ := keepAbandoned_only x.frame (abandoned s)
    obtain ⟨b, counted, zero, free, reports, spent, cursor⟩ :=
      countAbandon_contention (s := keepAbandoned x.frame (abandoned s)) (by rw [eq]; exact sixteenth) (by rw [eq]; rfl)
        (by rw [eq]; exact report)
    refine ⟨_, (exec_abandon hearing sent).trans (congrArg _ counted), ?_⟩
    rw [eq] at reports spent cursor ⊢
    exact ⟨zero, free, by simp [abandoned], reports, spent, cursor, rfl, rfl, rfl, rfl, rfl⟩
  · refine (next_hearing hearing _).trans ?_
    simp [stopped]
  · refine (next_hearing hearing _).trans ?_
    rw [if_pos beats, expireHeartbeat, setMarker_eq]
    rfl

end Sys2Proof.Machine
end

section
/-! Closed forms of the operations on the cue list: an entry found by its place, an entry that leaves, an entry that is planned,
and a head that is tested, started and ended. A place is given by the entries before it, `s.cues = before ++ e :: after`, so that
the place is `before.length`. -/
namespace Sys2Proof.Machine

/-! ### Places -/

theorem cueIndex_none {p : CueEntry → Bool} {s : State} (without : ∀ x ∈ s.cues, p x = false) : cueIndex p s = none :=
  List.findIdx?_eq_none_iff.mpr without

theorem cueIndex_at {p : CueEntry → Bool} {s : State} {before after : List CueEntry} {e : CueEntry}
    (list : s.cues = before ++ e :: after) (here : p e = true) (earlier : ∀ x ∈ before, p x = false) :
    cueIndex p s = some before.length := by
  simp [cueIndex, list, List.findIdx?_append, List.findIdx?_eq_none_iff.mpr earlier, List.findIdx?_cons, here]

@[simp] theorem getElem?_place {α : Type} (before after : List α) (e : α) : (before ++ e :: after)[before.length]? = some e := by
  simp

@[simp] theorem modify_place {α : Type} (before after : List α) (e : α) (f : α → α) :
    (before ++ e :: after).modify before.length f = before ++ f e :: after := by
  induction before with
  | nil => rfl
  | cons b bs ih => simp [List.modify_succ_cons, ih]

@[simp] theorem eraseIdx_place {α : Type} (before after : List α) (e : α) :
    (before ++ e :: after).eraseIdx before.length = before ++ after := by
  induction before with
  | nil => rfl
  | cons b bs ih => simp [ih]

theorem modifyCue_at {s : State} {before after : List CueEntry} {e : CueEntry} (f : CueEntry → CueEntry)
    (list : s.cues = before ++ e :: after) : modifyCue before.length f s = { s with cues := before ++ f e :: after } := by
  simp [modifyCue, list]

/-! ### No peer known: the overlap test has nothing to test (R84) -/

theorem overlapAllBy_noPeers {fault : FaultClass → FaultName → State → State} {s : State} (none : s.peers = []) :
    overlapAllBy fault s = s := by
  simp [overlapAllBy, none]

theorem overlapAll_noPeers {s : State} (none : s.peers = []) : overlapAll s = s := overlapAllBy_noPeers none

theorem overlapAfterBy_noPeers {fault : FaultClass → FaultName → State → State} (b : State) {s : State} (none : s.peers = []) :
    overlapAfterBy fault b s = s := by
  rw [overlapAfterBy, overlapAllBy_noPeers none, ite_self]

theorem overlapAfter_noPeers (b : State) {s : State} (none : s.peers = []) : overlapAfter b s = s :=
  overlapAfterBy_noPeers b none

theorem changeClaims_noPeers (own : List OwnClaim) {s : State} (none : s.peers = []) : changeClaims own s = setOwn own s := by
  rw [changeClaims, overlapAfter_noPeers]
  rw [setOwn_eq]
  exact none

/-! ### The READY FIFO (R102) -/

theorem dropWithdrawal_first {kept later : List QueuedReady} {w : QueuedReady} (none : ∀ q ∈ kept, q.withdrawn = false)
    (here : w.withdrawn = true) : dropWithdrawal (kept ++ w :: later) = kept ++ later := by
  induction kept with
  | nil => simp [dropWithdrawal, here]
  | cons q qs ih =>
    have first : q.withdrawn = false := none q (by simp)
    simp [dropWithdrawal, first, ih fun x mem => none x (by simp [mem])]

/-- What joining makes of the READY FIFO whose first `n` frames are in transmission. -/
def fifoJoined (r : QueuedReady) (n : Nat) (fifo : List QueuedReady) : List QueuedReady :=
  let room := if fifo.length < 4 then fifo else fifo.take n ++ dropWithdrawal (fifo.drop n)
  if room.length < 4 then room ++ [r] else fifo

theorem joinReady_eq (r : QueuedReady) (s : State) :
    joinReady r s = { s with bus := { s.bus with readyFifo := fifoJoined r (readySent s) s.bus.readyFifo } } := by
  unfold joinReady fifoJoined readyCapacity
  dsimp only
  by_cases room : s.bus.readyFifo.length < 4
  · simp [room]
  · simp only [room, if_false]
    split <;> rfl

theorem fifoJoined_room {r : QueuedReady} {n : Nat} {fifo : List QueuedReady} (room : fifo.length < 4) :
    fifoJoined r n fifo = fifo ++ [r] := by
  simp [fifoJoined, room]

/-- A full FIFO makes room by its oldest withdrawal that is not in transmission. -/
theorem fifoJoined_full {r w : QueuedReady} {sent kept later : List QueuedReady} (full : (sent ++ kept ++ w :: later).length = 4)
    (none : ∀ q ∈ kept, q.withdrawn = false) (here : w.withdrawn = true) :
    fifoJoined r sent.length (sent ++ kept ++ w :: later) = sent ++ kept ++ later ++ [r] := by
  have rest : (sent ++ kept ++ later).length < 4 := by
    simp only [List.length_append, List.length_cons] at full ⊢
    omega
  have split : (sent ++ kept ++ w :: later).take sent.length = sent ∧
      (sent ++ kept ++ w :: later).drop sent.length = kept ++ w :: later := by simp
  simp only [fifoJoined, split.1, split.2, dropWithdrawal_first none here, full, Nat.lt_irrefl, if_false]
  rw [← List.append_assoc, if_pos rest]

/-- The mark of a readiness in transmission that no record takes any more. -/
def orphaned (g : Byte) (q : QueuedReady) : QueuedReady := if isReadiness g q then { q with orphan := true } else q

/-- What placing a withdrawal makes of the READY FIFO whose first `n` frames are in transmission. -/
def fifoWithdrawn (g tag : Byte) (n : Nat) (fifo : List QueuedReady) : List QueuedReady :=
  if (fifo.drop n).any (isReadiness g) then
    fifo.take n ++ replaceReadiness g ⟨g, tag, 0, 0, true, false⟩ (fifo.drop n)
  else fifoJoined ⟨g, tag, 0, 0, true, false⟩ n ((fifo.take n).map (orphaned g) ++ fifo.drop n)

theorem placeWithdrawal_eq (g tag : Byte) (s : State) :
    placeWithdrawal g tag s =
      { s with bus := { s.bus with readyFifo := fifoWithdrawn g tag (readySent s) s.bus.readyFifo } } := by
  unfold placeWithdrawal fifoWithdrawn
  dsimp only
  split
  · rfl
  · rw [joinReady_eq]
    rfl

/-! ### An entry leaves the list (R39, R49) -/

/-- The group coordinator without an entry's record, and without its timers when the entry was in GROUP_WAIT (R97, R105). -/
def groupsWithout (e : CueEntry) (g : Groups) : Groups :=
  { records := g.records.filter fun r => decide (e.group ≠ some r.group)
    waitTimer := if e.stage = .groupWait ∧ e.group ≠ none then false else g.waitTimer
    startDelay := if e.stage = .groupWait ∧ e.group ≠ none then none else g.startDelay }

theorem dropGroup_eq (e : CueEntry) (s : State) : dropGroup e s = { s with groups := groupsWithout e s.groups } := by
  unfold dropGroup groupsWithout
  cases group : e.group with
  | none => simp
  | some g =>
    have same : ∀ r : GroupRecord, (r.group != g) = decide ((some g : Option Byte) ≠ some r.group) := fun r => by
      rw [bne, beq_eq_decide, ← decide_not]
      simp [eq_comm]
    by_cases waits : e.stage = .groupWait <;> simp [waits, same]

/-- The claim manager without the rectangles of the entry at a place, its claim timers stopped when it was past QUEUED and not
RUNNING. -/
def claimsWithout (k : Nat) (e : CueEntry) (c : ClaimManager) : ClaimManager :=
  { own := c.own.filter fun o => !ownedAt k o
    overlap := c.overlap
    settleTimer := if e.stage = .queued ∨ e.stage = .running then c.settleTimer else false
    claimWaitTimer := if e.stage = .queued ∨ e.stage = .running then c.claimWaitTimer else false }

/-- The READY FIFO after an entry has left, a withdrawal being placed when it was in GROUP_WAIT with its record COLLECTING and
one is due (R108). -/
def fifoWithout (e : CueEntry) (withdraw : Bool) (s : State) : List QueuedReady :=
  if withdraw && e.stage == .groupWait && entryGroupState e s == some .collecting then
    fifoWithdrawn (e.group.getD 0) e.tag (readySent s) s.bus.readyFifo
  else s.bus.readyFifo

/-- The bus interface after an entry has left with a report. -/
def busWithout (k : Nat) (o : CueOutcome) (e : CueEntry) (withdraw : Bool) (s : State) : BusInterface :=
  busMarked (decide ((claimsWithout k e s.claims).own ≠ s.claims.own) && onBus s)
    { busAfterReport (.cue e.tag o) s.bus with readyFifo := fifoWithout e withdraw s }

/-- The state after the entry at a place has left with a report. -/
def without (before after : List CueEntry) (o : CueOutcome) (e : CueEntry) (withdraw : Bool) (s : State) : State :=
  { s with
    cues := before ++ after
    groups := groupsWithout e s.groups
    claims := claimsWithout before.length e s.claims
    bus := busWithout before.length o e withdraw s }

theorem dropAt_eq {s : State} {before after : List CueEntry} {e : CueEntry} (list : s.cues = before ++ e :: after) :
    dropAt before.length s = { s with
      cues := before ++ after
      groups := groupsWithout e s.groups
      claims := claimsWithout before.length e s.claims
      bus := busMarked (decide ((claimsWithout before.length e s.claims).own ≠ s.claims.own) && onBus s) s.bus } := by
  simp only [dropAt, list, getElem?_place, eraseIdx_place, dropGroup_eq, setOwn_eq, claimsWithout]
  by_cases still : e.stage = .queued ∨ e.stage = .running
  · simp only [still, if_true]
    rfl
  · simp only [still, if_false]
    rfl

theorem readySent_eq {s t : State} (same : t.bus.transmission.map Transmission.frame = s.bus.transmission.map Transmission.frame) :
    readySent t = readySent s := by
  have frame : ∀ u : State, readyInTransmission u =
      match u.bus.transmission.map Transmission.frame with
      | some (.ready _) => true
      | _ => false := by
    intro u
    unfold readyInTransmission
    cases u.bus.transmission with
    | none => rfl
    | some x => cases x with | mk f _ _ _ _ => cases f <;> rfl
  unfold readySent
  rw [frame t, frame s, same]

theorem removeAt_eq {s : State} {before after : List CueEntry} {e : CueEntry} (o : CueOutcome) (withdraw : Bool)
    (list : s.cues = before ++ e :: after) : removeAt before.length o withdraw s = without before after o e withdraw s := by
  have sent : readySent { s with bus := busAfterReport (.cue e.tag o) s.bus } = readySent s :=
    readySent_eq (busAfterReport_transmission _ _)
  have report : reportCue e.tag o s = { s with bus := busAfterReport (.cue e.tag o) s.bus } := pushReport_eq _ _
  have kept : { busAfterReport (.cue e.tag o) s.bus with readyFifo := s.bus.readyFifo } =
      busAfterReport (.cue e.tag o) s.bus := by
    rw [← busAfterReport_readyFifo (.cue e.tag o) s.bus]
  have found : s.cues[before.length]? = some e := by rw [list, getElem?_place]
  simp only [removeAt, found, report, without, busWithout, fifoWithout]
  cases group : e.group with
  | none =>
    have noState : entryGroupState e s = none := by simp [entryGroupState, group]
    simp only [noState, Option.none_beq_some, Bool.and_false, Bool.false_eq_true, if_false, kept]
    exact dropAt_eq (by exact list)
  | some g =>
    dsimp only
    split
    · rw [placeWithdrawal_eq, sent, busAfterReport_readyFifo]
      exact dropAt_eq (by exact list)
    · rw [kept]
      exact dropAt_eq (by exact list)

/-- The entry at a place leaves, no peer known; its place is then filled. -/
theorem leaveAt_eq {s : State} {before after : List CueEntry} {e : CueEntry} (o : CueOutcome) (withdraw : Bool)
    (list : s.cues = before ++ e :: after) (none : s.peers = []) :
    leaveAt before.length o withdraw s = refill before.length (without before after o e withdraw s) := by
  rw [leaveAt, removeAt_eq o withdraw list, overlapAfter_noPeers _ (by exact none)]

end Sys2Proof.Machine
end

section
/-! Closed forms of the route test, the planning read and the plan's building (R42, R46, R61 to R63, R75 to R77). -/
namespace Sys2Proof.Machine

/-! ### The route test -/

/-- The bus interface after the legs of a route have been announced: the STATE marker set on the bus, and the transmission in
progress, if any, told of them (R71, R78). -/
def busAnnounced (legs : List Leg) (on : Bool) (b : BusInterface) : BusInterface :=
  if legs = [] then b
  else { busMarked on b with transmission := b.transmission.map fun t => { t with legsAdded := true } }

@[simp] theorem busAnnounced_reportFifo (l : List Leg) (on : Bool) (b : BusInterface) :
    (busAnnounced l on b).reportFifo = b.reportFifo := by unfold busAnnounced; split <;> rfl
@[simp] theorem busAnnounced_readyFifo (l : List Leg) (on : Bool) (b : BusInterface) :
    (busAnnounced l on b).readyFifo = b.readyFifo := by unfold busAnnounced; split <;> rfl
theorem busAnnounced_stateMarker (l : List Leg) (on : Bool) (b : BusInterface) :
    (busAnnounced l on b).stateMarker = (b.stateMarker || (decide (l ≠ []) && on)) := by
  unfold busAnnounced
  by_cases empty : l = [] <;> simp [empty]

/-- An entry in ROUTING whose route has been chosen (R75). -/
def routedEntry (e : CueEntry) (p : Plan) (i : Nat) (r : Route) : CueEntry :=
  { e with plan := some { p with chosen := some i }, stage := if r.legs = [] then .claimed else .claiming }

/-- The claim manager with the legs of a route announced for the entry at a place. -/
def claimsAnnounced (k : Nat) (e : CueEntry) (legs : List Leg) (c : ClaimManager) : ClaimManager :=
  { c with own := c.own ++ pendingClaims (kindAt k) ⟨e.priority, e.retry⟩ legs }

@[simp] theorem pendingClaims_nil (kind : ClaimKind) (rank : Rank) : pendingClaims kind rank [] = [] := rfl

@[simp] theorem claimsAnnounced_nil (k : Nat) (e : CueEntry) (c : ClaimManager) : claimsAnnounced k e [] c = c := by
  simp [claimsAnnounced]

theorem pendingClaims_eq_nil {kind : ClaimKind} {rank : Rank} {legs : List Leg} :
    pendingClaims kind rank legs = [] ↔ legs = [] := by
  simp [pendingClaims, List.map_eq_nil_iff]

theorem routeTest_free {s : State} {before after : List CueEntry} {e : CueEntry} {p : Plan} {i : Nat} {r : Route}
    (list : s.cues = before ++ e :: after) (routing : e.stage = .routing) (plan : e.plan = some p)
    (free : firstFree p (obstacles s) i r) :
    routeTest before.length s = { s with
      cues := before ++ routedEntry e p i r :: after
      claims := claimsAnnounced before.length e r.legs s.claims
      bus := busAnnounced r.legs (onBus s) s.bus } := by
  have found : s.cues[before.length]? = some e := by rw [list, getElem?_place]
  have first : p.candidates.findIdx? (routeFree p (obstacles s)) = some i := (firstFree_iff p _ i).mpr ⟨r, free⟩
  have legs : (p.candidates[i]?.map Route.legs).getD [] = r.legs := by rw [free.1]; rfl
  simp only [routeTest, found, routing, plan, first, legs, List.isEmpty_iff]
  by_cases empty : r.legs = []
  · rw [if_pos empty, modifyCue_at _ list, empty, claimsAnnounced_nil, busAnnounced, if_pos rfl, routedEntry, if_pos empty]
  · rw [if_neg empty, modifyCue_at _ list, announceLegs, setOwn_eq]
    have grows : decide (s.claims.own ++ pendingClaims (kindAt before.length) ⟨e.priority, e.retry⟩ r.legs ≠ s.claims.own) =
        true := by
      simp [pendingClaims_eq_nil, empty]
    rw [grows, Bool.true_and, busAnnounced, if_neg empty, routedEntry, if_neg empty]
    rfl

theorem routeTest_blocked {s : State} {before after : List CueEntry} {e : CueEntry} {p : Plan}
    (list : s.cues = before ++ e :: after) (routing : e.stage = .routing) (plan : e.plan = some p)
    (blocked : allBlocked p (obstacles s)) : routeTest before.length s = s := by
  have found : s.cues[before.length]? = some e := by rw [list, getElem?_place]
  have none := (allBlocked_iff p (obstacles s)).mpr blocked
  simp only [routeTest, found, routing, plan, none]

theorem routeTest_settled {k : Nat} {s : State} (settled : ∀ e, s.cues[k]? = some e → e.stage ≠ .routing) :
    routeTest k s = s := by
  unfold routeTest
  split
  · rfl
  · rename_i e found
    have other := settled e found
    split
    · contradiction
    · rfl

theorem retestRoutes_settled {s : State} (settled : ∀ e ∈ s.cues, e.stage ≠ .routing) : retestRoutes s = s := by
  have at_ : ∀ (k : Nat) (e : CueEntry), s.cues[k]? = some e → e.stage ≠ .routing := fun k e found => settled e (List.mem_of_getElem? found)
  rw [retestRoutes, routeTest_settled (at_ 0), routeTest_settled (at_ 1)]

/-! ### Plan building -/

/-- The route candidates of a plan as built: at least one, and either none has legs or all have (R56, R57). -/
theorem buildPlan_candidates (cfg : Configuration) (starts : PerAxis Position) (c : ShotContent) :
    (buildPlan cfg starts c).candidates ≠ [] ∧
      ((∀ r ∈ (buildPlan cfg starts c).candidates, r.legs = []) ∨ ∀ r ∈ (buildPlan cfg starts c).candidates, r.legs ≠ []) := by
  simp only [buildPlan, candidateLegs]
  split_ifs
  · simp [splitRoute]
  · simp [splitRoute]
  · simp [splitRoute]
  · cases c.routeHint <;> simp [splitRoute]

/-- The claim wait timer runs for a plan unless it has no legs or the choice is "none" (R77). -/
def waitsForFloor (p : Plan) (s : State) : Bool :=
  p.candidates.any (fun r => !r.legs.isEmpty) && decide ((configOf s).claimWait ≠ .never)

theorem startClaimWait_eq (p : Plan) (s : State) :
    startClaimWait p s =
      { s with claims := { s.claims with claimWaitTimer := s.claims.claimWaitTimer || waitsForFloor p s } } := by
  have test : (p.candidates.any (fun r => !r.legs.isEmpty) && (configOf s).claimWait != .never) = waitsForFloor p s := by
    simp [waitsForFloor, bne, beq_eq_decide]
  unfold startClaimWait
  rw [test]
  cases waitsForFloor p s <;> simp

/-- A plan as built waits for floor exactly when one of its candidates, and so each, has legs. -/
theorem waitsForFloor_of_candidate {s : State} {cfg : Configuration} {starts : PerAxis Position} {c : ShotContent} {r : Route}
    (member : r ∈ (buildPlan cfg starts c).candidates) :
    waitsForFloor (buildPlan cfg starts c) s = (decide (r.legs ≠ []) && decide ((configOf s).claimWait ≠ .never)) := by
  have any : ((buildPlan cfg starts c).candidates.any fun r => !r.legs.isEmpty) = decide (r.legs ≠ []) := by
    rcases (buildPlan_candidates cfg starts c).2 with none | all
    · have no : ((buildPlan cfg starts c).candidates.any fun r => !r.legs.isEmpty) = false := by
        rw [List.any_eq_false]
        exact fun q mem => by simp [none q mem]
      rw [no]
      simp [none r member]
    · have yes : ((buildPlan cfg starts c).candidates.any fun r => !r.legs.isEmpty) = true := by
        rw [List.any_eq_true]
        exact ⟨r, member, by simp [all r member]⟩
      rw [yes]
      simp [all r member]
  rw [waitsForFloor, any]

/-- With every candidate blocked a plan as built has legs: a route without legs is always free. -/
theorem waitsForFloor_of_blocked {s : State} {cfg : Configuration} {starts : PerAxis Position} {c : ShotContent}
    {obs : List Rect} (blocked : allBlocked (buildPlan cfg starts c) obs) :
    waitsForFloor (buildPlan cfg starts c) s = decide ((configOf s).claimWait ≠ .never) := by
  obtain ⟨r, member⟩ := List.exists_mem_of_ne_nil _ (buildPlan_candidates cfg starts c).1
  have legs : r.legs ≠ [] := fun empty => by simpa [routeFree, empty] using blocked r member
  rw [waitsForFloor_of_candidate member]
  simp [legs]

/-- The claim wait timer started for a plan. -/
def claimsWaiting (p : Plan) (s : State) : ClaimManager :=
  { s.claims with claimWaitTimer := s.claims.claimWaitTimer || waitsForFloor p s }

theorem enterRouting_free {s : State} {before after : List CueEntry} {e : CueEntry} {c : ShotContent} {p : Plan} {i : Nat}
    {r : Route} (list : s.cues = before ++ e :: after) (free : firstFree p (obstacles s) i r) :
    enterRouting before.length c p s = { s with
      cues := before ++ stagedEntry e c p i r :: after
      claims := claimsAnnounced before.length e r.legs (claimsWaiting p s)
      bus := busAnnounced r.legs (onBus s) s.bus } := by
  rw [enterRouting, modifyCue_at _ list, startClaimWait_eq]
  exact routeTest_free (e := blockedEntry e c p) rfl rfl rfl free

theorem enterRouting_blocked {s : State} {before after : List CueEntry} {e : CueEntry} {c : ShotContent} {p : Plan}
    (list : s.cues = before ++ e :: after) (blocked : allBlocked p (obstacles s)) :
    enterRouting before.length c p s =
      { s with cues := before ++ blockedEntry e c p :: after, claims := claimsWaiting p s } := by
  rw [enterRouting, modifyCue_at _ list, startClaimWait_eq]
  exact routeTest_blocked (e := blockedEntry e c p) rfl rfl rfl blocked

/-! ### The planning read -/

theorem planAt_writing {s : State} {before after : List CueEntry} {e : CueEntry} (list : s.cues = before ++ e :: after)
    (busy : writing s.store e.shot = true) : planAt before.length s = (s, .stays) := by
  have found : s.cues[before.length]? = some e := by rw [list, getElem?_place]
  simp only [planAt, found, busy, if_true]

theorem planAt_empty {s : State} {before after : List CueEntry} {e : CueEntry} (list : s.cues = before ++ e :: after)
    (idle : writing s.store e.shot = false) (inside : e.shot ≤ 127) (empty : recordOf s.store e.shot = .empty) :
    planAt before.length s = (without before after (.failed .badShot) e false s, .left) := by
  have found : s.cues[before.length]? = some e := by rw [list, getElem?_place]
  simp only [planAt, found, idle, Bool.false_eq_true, if_false, lastShot, inside, if_true, empty, removeAt_eq _ _ list]

/-- The planning read of a VALID record: the targets clamped with a raise each, then the plan built unless a raise ended it. -/
theorem planAt_valid {s : State} {before after : List CueEntry} {e : CueEntry} {c : ShotContent}
    (list : s.cues = before ++ e :: after) (idle : writing s.store e.shot = false) (inside : e.shot ≤ 127)
    (valid : recordOf s.store e.shot = .valid c) :
    planAt before.length s =
      if (raiseLimits (limitAxes s (planStarts before.length s) c) s).2 then
        if 65535 < (buildPlan (configOf s) (planStarts before.length s) c).duration then
          (removeAt before.length (.failed .planRange) false (raiseLimits (limitAxes s (planStarts before.length s) c) s).1,
            .left)
        else
          (enterRouting before.length c (buildPlan (configOf s) (planStarts before.length s) c)
            (raiseLimits (limitAxes s (planStarts before.length s) c) s).1, .staged)
      else ((raiseLimits (limitAxes s (planStarts before.length s) c) s).1, .stays) := by
  have found : s.cues[before.length]? = some e := by rw [list, getElem?_place]
  have same : clampedAxes (configOf s) (planStarts before.length s) c = limitAxes s (planStarts before.length s) c := rfl
  simp only [planAt, found, idle, Bool.false_eq_true, if_false, lastShot, inside, if_true, valid, same]
  rcases raiseLimits (limitAxes s (planStarts before.length s) c) s with ⟨t, _ | _⟩ <;> rfl

/-- The planning read of a VALID record within the limits. -/
theorem planAt_within {s : State} {before after : List CueEntry} {e : CueEntry} {c : ShotContent}
    (list : s.cues = before ++ e :: after) (idle : writing s.store e.shot = false) (inside : e.shot ≤ 127)
    (valid : recordOf s.store e.shot = .valid c) (within : limitAxes s (planStarts before.length s) c = []) :
    planAt before.length s =
      if 65535 < (buildPlan (configOf s) (planStarts before.length s) c).duration then
        (without before after (.failed .planRange) e false s, .left)
      else (enterRouting before.length c (buildPlan (configOf s) (planStarts before.length s) c) s, .staged) := by
  rw [planAt_valid list idle inside valid, within]
  simp only [raiseLimits, if_true, removeAt_eq _ _ list]

end Sys2Proof.Machine
end

section
/-! Closed forms of the head's test, its start and the end of its move (R43 to R48, R67, R86, R88, R118, R120). -/
namespace Sys2Proof.Machine

/-! ### The head's test -/

theorem testHead_nil {s : State} (list : s.cues = []) : testHead s = (s, false) := by simp only [testHead, list]

/-- A taken entry's start is deferred on air while its shot is not live-permitted (R45). -/
theorem deferred_eq {s : State} {e : CueEntry} {c : ShotContent} (copy : e.copy = some c) :
    deferred e s = ((e.stage == .routing || e.stage == .claiming || e.stage == .claimed) && e.take && !c.livePermitted &&
      s.tally.onAir) := by
  simp [deferred, copy]

/-- The head's deferral reported, once (R45). -/
def deferralTold (e : CueEntry) (rest : List CueEntry) (s : State) : State :=
  { s with
    cues := { e with deferralReported := true } :: rest
    bus := if e.deferralReported then s.bus else busAfterReport (.cue e.tag .deferred) s.bus }

theorem testHead_deferred {s : State} {e : CueEntry} {rest : List CueEntry} (list : s.cues = e :: rest)
    (defers : deferred e s = true) : testHead s = (deferralTold e rest s, false) := by
  simp only [testHead, list, defers, if_true, reportDeferred, deferralTold]
  cases told : e.deferralReported with
  | false =>
    simp only [Bool.false_eq_true, if_false, modifyCue, list, List.modify_zero_cons, reportCue, pushReport_eq]
  | true =>
    simp only [if_true]
    rw [show ({ e with deferralReported := true } : CueEntry) = e by cases e; simp_all, ← list]

/-- A head that is not taken, or not yet CLAIMED, and not deferred waits (R43). -/
theorem testHead_waits {s : State} {e : CueEntry} {rest : List CueEntry} (list : s.cues = e :: rest)
    (goes : deferred e s = false) (waits : e.stage ≠ .claimed ∨ e.take = false) : testHead s = (s, false) := by
  simp only [testHead, list, goes, Bool.false_eq_true, if_false]
  rw [if_neg]
  rintro ⟨claimed, taken⟩
  rcases waits with other | untaken
  · exact other claimed
  · simp [taken] at untaken

/-- The head enters GROUP_WAIT: its readiness queued, the group wait timer started (R44, R101). -/
theorem testHead_group {s : State} {e : CueEntry} {rest : List CueEntry} (list : s.cues = e :: rest)
    (goes : deferred e s = false) (claimed : e.stage = .claimed) (taken : e.take = true) (mode : e.mode = .group) :
    testHead s = ({ s with
      cues := { e with stage := .groupWait } :: rest
      bus := { s.bus with
        readyFifo := fifoJoined ⟨e.group.getD 0, e.tag, ownDuration e, (configOf s).startDelay, false, false⟩ (readySent s)
          s.bus.readyFifo }
      groups := { s.groups with waitTimer := true } }, false) := by
  simp only [testHead, list, goes, Bool.false_eq_true, if_false, claimed, taken, and_self, if_true, mode, enterGroupWait,
    joinReady_eq, modifyCue, List.modify_zero_cons]
  rfl

/-- The head of no group starts, in ACTIVE with motion IDLE and no RESTART waiting (R43). -/
theorem testHead_starts {s : State} {e : CueEntry} {rest : List CueEntry} (list : s.cues = e :: rest)
    (goes : deferred e s = false) (claimed : e.stage = .claimed) (taken : e.take = true) (mode : e.mode ≠ .group)
    (active : s.control.station = .active) (idle : s.profile.motion = .idle) (clear : s.control.restartPending = false) :
    testHead s = startHead s := by
  simp only [testHead, list, goes, Bool.false_eq_true, if_false, claimed, taken, and_self, if_true, mode, active, idle, clear]

/-- The head of no group waits outside ACTIVE, behind a move, or for a RESTART (R43, log 15). -/
theorem testHead_held {s : State} {e : CueEntry} {rest : List CueEntry} (list : s.cues = e :: rest)
    (goes : deferred e s = false) (mode : e.mode ≠ .group)
    (held : ¬(s.control.station = .active ∧ s.profile.motion = .idle ∧ s.control.restartPending = false)) :
    testHead s = (s, false) := by
  simp only [testHead, list, goes, Bool.false_eq_true, if_false, mode, held]
  split <;> rfl

theorem retestHead_of {s t : State} (test : testHead s = (t, false)) : retestHead s = t := by
  simp only [retestHead, test]

theorem retestHead_ended {s t : State} (test : testHead s = (t, true)) : retestHead s = takeUpHead t := by
  simp only [retestHead, test]

/-! ### Start -/

/-- The head's move begun: RUNNING, STARTED reported, the plan with its chosen route under way (R43, R118). -/
def moveBegun (e : CueEntry) (rest : List CueEntry) (c : ShotContent) (p : Plan) (s : State) : State :=
  { s with
    cues := { e with stage := .running } :: rest
    profile := startedProfile s s.tally.onAir c p
    bus := busMarked (onBus s) (busAfterReport (.cue e.tag .started) s.bus)
    port := { s.port with blanking := freshWindow s } }

theorem beginMove_eq {s : State} {e : CueEntry} {rest : List CueEntry} {c : ShotContent} {p : Plan}
    (list : s.cues = e :: rest) (copy : e.copy = some c) (plan : e.plan = some p) (idle : s.profile.motion = .idle) :
    beginMove (reportCue e.tag .started (modifyCue 0 (fun e => { e with stage := .running }) s)) = moveBegun e rest c p s := by
  have changes : decide (s.profile.motion ≠ if s.profile.hold then MotionState.held else .running) = true := by
    cases s.profile.hold <;> simp [idle]
  have live : (if s.profile.hold then 0 else if s.tally.onAir && !c.livePermitted then (configOf s).liveRate else 256) =
      rateTarget { s with profile := { s.profile with
        motion := if s.profile.hold then .held else .running, plan := some (runningPlanOf p c.livePermitted) } } := by
    cases hold : s.profile.hold <;> simp [rateTarget, runsNotLive, runningPlanOf, configOf, hold]
  simp only [reportCue, pushReport_eq, modifyCue, list, List.modify_zero_cons, beginMove, copy, plan, Option.map_some,
    Option.getD_some, setMotion_eq, changes, Bool.true_and, moveBegun, startedProfile, live]
  rfl

theorem busAfterReport_busMarked (r : Report) (m : Bool) (b : BusInterface) :
    busAfterReport r (busMarked m b) = busMarked m (busAfterReport r b) := by
  unfold busAfterReport
  rw [busMarked_reportFifo]
  split <;> rfl

theorem busAfterReport_room {r : Report} {b : BusInterface} (room : b.reportFifo.length < 8) :
    (busAfterReport r b).reportFifo = b.reportFifo ++ [r] := by
  rw [busAfterReport, if_pos room]

/-- With the STATE marker set already, the own claim set is all that changes (R71). -/
theorem setOwn_marked {own : List OwnClaim} {s : State} (marked : onBus s = true → s.bus.stateMarker = true) :
    setOwn own s = { s with claims := { s.claims with own := own } } := by
  rw [setOwn_eq]
  cases on : onBus s with
  | false => simp
  | true =>
    have same : busMarked true s.bus = s.bus := by rw [busMarked, marked on, Bool.true_or, ← marked on]
    cases decide (own ≠ s.claims.own) <;> simp [same]

/-- The own claim set of a move that begins: PARKED released by a route with legs (R86). -/
def ownStarted (p : Plan) (own : List OwnClaim) : List OwnClaim :=
  if (chosenRoute p).legs = [] then own else own.filter fun o => o.claim.kind != .parked

/-- The head's move started: begun, with PARKED released (R43, R86). -/
def moveStarted (e : CueEntry) (rest : List CueEntry) (c : ShotContent) (p : Plan) (s : State) : State :=
  { moveBegun e rest c p s with claims := { s.claims with own := ownStarted p s.claims.own } }

theorem releaseParked_moveBegun {s : State} {e : CueEntry} {rest : List CueEntry} {c : ShotContent} {p : Plan}
    (quiet : s.peers = [] ∨ (chosenRoute p).legs = []) :
    releaseParked (moveBegun e rest c p s) = moveStarted e rest c p s := by
  have plan : (moveBegun e rest c p s).profile.plan = some (runningPlanOf p c.livePermitted) := rfl
  have route : (runningPlanOf p c.livePermitted).route = chosenRoute p := rfl
  simp only [releaseParked, plan, route, List.isEmpty_iff, moveStarted, ownStarted]
  by_cases empty : (chosenRoute p).legs = []
  · simp only [empty, if_true]
    rfl
  · have none : (moveBegun e rest c p s).peers = [] := quiet.resolve_right empty
    have marked : onBus (moveBegun e rest c p s) = true → (moveBegun e rest c p s).bus.stateMarker = true := fun on => by
      have on : onBus s = true := on
      simp [moveBegun, on]
    rw [if_neg empty, if_neg empty, changeClaims_noPeers _ none, setOwn_marked marked]
    rfl

/-- The profile generator at rest after a move, the rate and the hold flag kept (R120, R125). -/
def profileAtRest (p : Profile) : Profile :=
  { p with motion := .idle, plan := none, time := 0, stopKind := none, leg1Passed := false }

/-- The head's move ended with a report, before the claims are changed: the head gone with its group record (R47, R48). -/
def headEnded (e : CueEntry) (rest : List CueEntry) (o : CueOutcome) (s : State) : State :=
  { s with
    cues := rest
    groups := groupsWithout e s.groups
    profile := profileAtRest s.profile
    bus := busMarked (onBus s) (busAfterReport (.cue e.tag o) s.bus) }

theorem endHead_endMove {s : State} {e : CueEntry} {rest : List CueEntry} (o : CueOutcome) (list : s.cues = e :: rest)
    (moves : s.profile.motion ≠ .idle) : endHead o (endMove s) = headEnded e rest o s := by
  have changes : decide (s.profile.motion ≠ .idle) = true := by simp [moves]
  simp only [endMove, setMotion_eq, changes, Bool.true_and, endHead, list, reportCue, pushReport_eq, dropGroup_eq, headEnded,
    busAfterReport_busMarked]
  rfl

/-- Completion of a move, no peer known (R47, R88, R120). -/
theorem completeMove_eq {s : State} {e : CueEntry} {rest : List CueEntry} (list : s.cues = e :: rest)
    (moves : s.profile.motion ≠ .idle) (none : s.peers = []) :
    completeMove s =
      { headEnded e rest .completed s with
        claims := { s.claims with own := parkedAt s s.port.lastSetpoint :: relabelled s } } := by
  have own : completionClaims (headEnded e rest .completed s) = parkedAt s s.port.lastSetpoint :: relabelled s := rfl
  have none' : (headEnded e rest .completed s).peers = [] := none
  have marked : onBus (headEnded e rest .completed s) = true → (headEnded e rest .completed s).bus.stateMarker = true :=
    fun on => by
      have on : onBus s = true := on
      simp [headEnded, on]
  rw [completeMove, endHead_endMove _ list moves, own, setOwn_marked marked]
  exact overlapAfter_noPeers _ none'

theorem zeroLength_moveStarted (e : CueEntry) (rest : List CueEntry) (c : ShotContent) (p : Plan) (s : State) :
    zeroLength (moveStarted e rest c p s) = decide (p.common.getD p.duration = 0) := by
  show (p.common.getD p.duration == 0) = _
  rw [beq_eq_decide]

section
variable {s : State} {e : CueEntry} {rest : List CueEntry} {c : ShotContent} {p : Plan}

/-- The start of a head, no peer known or no leg to run: a move with a length has the second entry pre-planned, one of N 0
completes at once (R43, R46, R67). -/
theorem startHead_eq (list : s.cues = e :: rest) (copy : e.copy = some c) (plan : e.plan = some p)
    (idle : s.profile.motion = .idle) (quiet : s.peers = [] ∨ (chosenRoute p).legs = []) :
    startHead s =
      if p.common.getD p.duration = 0 then (completeMove (moveStarted e rest c p s), true)
      else (takeUpSecond (moveStarted e rest c p s), false) := by
  simp only [startHead, list]
  rw [beginMove_eq list copy plan idle, releaseParked_moveBegun quiet, zeroLength_moveStarted]
  by_cases zero : p.common.getD p.duration = 0
  · simp only [zero, decide_true, if_true]
  · simp only [zero, decide_false, Bool.false_eq_true, if_false]
    rfl

theorem startHead_long (list : s.cues = e :: rest) (copy : e.copy = some c) (plan : e.plan = some p)
    (idle : s.profile.motion = .idle) (quiet : s.peers = [] ∨ (chosenRoute p).legs = []) (long : 1 ≤ p.common.getD p.duration) :
    startHead s = (takeUpSecond (moveStarted e rest c p s), false) := by
  rw [startHead_eq list copy plan idle quiet, if_neg (by omega)]

/-- What a move of N 0 leaves: the head gone, PARKED laid, nothing else but the started state (R67). -/
def moveCompleted (e : CueEntry) (rest : List CueEntry) (c : ShotContent) (p : Plan) (s : State) : State :=
  { headEnded { e with stage := .running } rest .completed (moveStarted e rest c p s) with
    claims := { s.claims with own := parkedAt s s.port.lastSetpoint :: relabelled s } }

theorem relabelled_ownStarted (p : Plan) (own : List OwnClaim) :
    (ownStarted p own).filter (fun o => o.claim.kind == .nextLeg) = own.filter fun o => o.claim.kind == .nextLeg := by
  unfold ownStarted
  split
  · rfl
  · rw [List.filter_filter]
    refine List.filter_congr fun o _ => ?_
    cases o.claim.kind <;> rfl

theorem startHead_zero (list : s.cues = e :: rest) (copy : e.copy = some c) (plan : e.plan = some p)
    (idle : s.profile.motion = .idle) (none : s.peers = []) (zero : p.common.getD p.duration = 0) :
    startHead s = (moveCompleted e rest c p s, true) := by
  have moves : (moveStarted e rest c p s).profile.motion ≠ .idle := by
    show (if s.profile.hold then MotionState.held else .running) ≠ .idle
    cases s.profile.hold <;> simp
  have same : relabelled (moveStarted e rest c p s) = relabelled s :=
    congrArg (List.map _) (relabelled_ownStarted p s.claims.own)
  rw [startHead_eq list copy plan idle (.inl none), if_pos zero, completeMove_eq rfl moves none, same]
  rfl

end

end Sys2Proof.Machine
end

section
/-! The head place and the second place filled (R42, R46, R47): the readings of the entry that has come to it. -/
namespace Sys2Proof.Machine

/-! ### The head -/

theorem takeUpHead_nil {s : State} (list : s.cues = []) : takeUpHead s = s := by
  rw [takeUpHead, list]
  rfl

theorem takeUpHead_cons {s : State} {e : CueEntry} {rest : List CueEntry} (list : s.cues = e :: rest) :
    takeUpHead s = advance (rest.length + 1) s := by
  rw [takeUpHead, list]
  rfl

section
variable {s : State} {e : CueEntry} {rest : List CueEntry} (list : s.cues = e :: rest)
include list

/-- Outside ACTIVE a QUEUED head is not read (R42). -/
theorem takeUpHead_inactive (queued : e.stage = .queued) (other : s.control.station ≠ .active) : takeUpHead s = s := by
  simp only [takeUpHead_cons list, advance, list, queued, if_true, other, if_false]

theorem takeUpHead_stays {t : State} (queued : e.stage = .queued) (active : s.control.station = .active)
    (read : planAt 0 s = (t, .stays)) : takeUpHead s = t := by
  simp only [takeUpHead_cons list, advance, list, queued, if_true, active, read]

theorem takeUpHead_left {t : State} (queued : e.stage = .queued) (active : s.control.station = .active)
    (read : planAt 0 s = (t, .left)) : takeUpHead s = advance rest.length t := by
  simp only [takeUpHead_cons list, advance, list, queued, if_true, active, read]

theorem takeUpHead_staged {t u : State} (queued : e.stage = .queued) (active : s.control.station = .active)
    (read : planAt 0 s = (t, .staged)) (test : testHead t = (u, false)) : takeUpHead s = u := by
  simp only [takeUpHead_cons list, advance, list, queued, if_true, active, read, test]

theorem takeUpHead_ended {t u : State} (queued : e.stage = .queued) (active : s.control.station = .active)
    (read : planAt 0 s = (t, .staged)) (test : testHead t = (u, true)) : takeUpHead s = advance rest.length u := by
  simp only [takeUpHead_cons list, advance, list, queued, if_true, active, read, test]

/-- A head past QUEUED is only tested. -/
theorem takeUpHead_past {t : State} (past : e.stage ≠ .queued) (test : testHead s = (t, false)) : takeUpHead s = t := by
  simp only [takeUpHead_cons list, advance, list, past, if_false, test]

end

/-! ### The second entry -/

theorem takeUpSecond_no {s : State} (no : prePlanAllowed s = false) : takeUpSecond s = s := by
  unfold takeUpSecond
  cases s.cues.length with
  | zero => rfl
  | succ n => rw [fillSecond, no]; rfl

theorem prePlanAllowed_short {s : State} (short : s.cues.length < 2) : prePlanAllowed s = false := by
  unfold prePlanAllowed
  split
  · rename_i list
    simp [list] at short
  · rfl

theorem prePlanAllowed_eq {s : State} {d f : CueEntry} {more : List CueEntry} (list : s.cues = d :: f :: more) :
    prePlanAllowed s = (d.stage == .running && f.stage == .queued && s.profile.motion != .stopping &&
      s.control.station == .active) := by
  simp only [prePlanAllowed, list]

section
variable {s : State} {d f : CueEntry} {more : List CueEntry} (list : s.cues = d :: f :: more)
  (allowed : prePlanAllowed s = true)
include list allowed

theorem takeUpSecond_read {t : State} {x : ReadResult} (read : planAt 1 s = (t, x)) (in_ : x ≠ .left) : takeUpSecond s = t := by
  rw [takeUpSecond, list, List.length_cons, fillSecond, if_pos allowed, read]
  cases x <;> first | rfl | exact absurd rfl in_

theorem takeUpSecond_left {t : State} (read : planAt 1 s = (t, .left)) (short : t.cues.length < 2) : takeUpSecond s = t := by
  have no := prePlanAllowed_short short
  rw [takeUpSecond, list, List.length_cons, fillSecond, if_pos allowed, read, List.length_cons]
  show fillSecond (more.length + 1) t = t
  rw [fillSecond, no]
  rfl

end

end Sys2Proof.Machine
end

section
/-! What a planning read makes of an entry that has come to the head or the second place (`planningMakes`). -/
namespace Sys2Proof.Machine

theorem fifoWithout_quiet {e : CueEntry} {withdraw : Bool} {s : State}
    (quiet : withdraw = false ∨ e.stage ≠ .groupWait ∨ entryGroupState e s ≠ some .collecting) :
    fifoWithout e withdraw s = s.bus.readyFifo := by
  rw [fifoWithout, if_neg]
  rcases quiet with no | other | other <;> simp [*]

/-- The rectangles that an entry leaves behind, by the kind of its place (R70). -/
theorem claimsWithout_own {k : Nat} {kind : ClaimKind} (place : (k = 0 ∧ kind = .leg) ∨ (k = 1 ∧ kind = .nextLeg)) (e : CueEntry)
    (c : ClaimManager) : (claimsWithout k e c).own = c.own.filter fun o => o.claim.kind != kind := by
  rcases place with ⟨rfl, rfl⟩ | ⟨rfl, rfl⟩ <;> rfl

/-- A QUEUED entry's failing planning read: gone with its rectangles, its record and its report. -/
theorem without_queued {before after : List CueEntry} {kind : ClaimKind} {f : CueEntry} {u : State} (o : CueOutcome)
    (place : (before.length = 0 ∧ kind = .leg) ∨ (before.length = 1 ∧ kind = .nextLeg)) (queued : f.stage = .queued) :
    (without before after o f false u).claims =
        { u.claims with own := u.claims.own.filter fun o => o.claim.kind != kind } ∧
      (without before after o f false u).groups =
        { u.groups with records := u.groups.records.filter fun r => decide (f.group ≠ some r.group) } ∧
      (without before after o f false u).bus.readyFifo = u.bus.readyFifo ∧
      (u.bus.reportFifo.length < 8 →
        (without before after o f false u).bus.reportFifo = u.bus.reportFifo ++ [.cue f.tag o]) := by
  have own := claimsWithout_own place f u.claims
  refine ⟨?_, ?_, ?_, fun room => ?_⟩
  · show claimsWithout before.length f u.claims = _
    rw [← own]
    simp [claimsWithout, queued]
  · simp [without, groupsWithout, queued]
  · exact fifoWithout_quiet (e := f) (.inl rfl)
  · exact busAfterReport_room room

/-- The bus interface, the rest of the machine kept, after a head's deferral has been told. -/
theorem deferralTold_fields (e : CueEntry) (rest : List CueEntry) (s : State) :
    (deferralTold e rest s).bus.readyFifo = s.bus.readyFifo ∧
      (s.bus.reportFifo.length < 8 → (deferralTold e rest s).bus.reportFifo =
        s.bus.reportFifo ++ if e.deferralReported then [] else [.cue e.tag .deferred]) := by
  cases told : e.deferralReported with
  | true => simp [deferralTold, told]
  | false => exact ⟨by simp [deferralTold, told], fun room => by simp [deferralTold, told, busAfterReport_room room]⟩

/-- The head once its planning read has staged it, when it does not start: deferred and told, or as it is. -/
def headSettled (e : CueEntry) (rest : List CueEntry) (defers : Bool) (s : State) : State :=
  if defers then deferralTold e rest s else s

theorem testHead_settled {s : State} {e : CueEntry} {rest : List CueEntry} (list : s.cues = e :: rest)
    (waits : e.stage ≠ .claimed ∨ e.take = false ∨ deferred e s = true) :
    testHead s = (headSettled e rest (deferred e s) s, false) := by
  cases defers : deferred e s with
  | true => exact testHead_deferred list defers
  | false => exact testHead_waits list defers (waits.imp_right fun w => w.resolve_right (by simp [defers]))

theorem headSettled_fields {s : State} {e : CueEntry} {rest : List CueEntry} (list : s.cues = e :: rest) (defers : Bool) :
    (headSettled e rest defers s).cues = { e with deferralReported := e.deferralReported || defers } :: rest ∧
      (headSettled e rest defers s).control = s.control ∧ (headSettled e rest defers s).profile = s.profile ∧
      (headSettled e rest defers s).port = s.port ∧ (headSettled e rest defers s).store = s.store ∧
      (headSettled e rest defers s).faults = s.faults ∧ (headSettled e rest defers s).tally = s.tally ∧
      (headSettled e rest defers s).peers = s.peers ∧ (headSettled e rest defers s).claims = s.claims ∧
      (headSettled e rest defers s).groups = s.groups ∧
      (headSettled e rest defers s).bus.readyFifo = s.bus.readyFifo ∧
      (s.bus.reportFifo.length < 8 → (headSettled e rest defers s).bus.reportFifo =
        s.bus.reportFifo ++ if defers && !e.deferralReported then [.cue e.tag .deferred] else []) := by
  obtain ⟨ready, reports⟩ := deferralTold_fields e rest s
  cases defers with
  | false => simpa [headSettled] using list
  | true =>
    refine ⟨by simp [headSettled, deferralTold], rfl, rfl, rfl, rfl, rfl, rfl, rfl, rfl, rfl, ready, fun room => ?_⟩
    rw [headSettled, if_pos rfl, reports room]
    cases e.deferralReported <;> rfl

/-- The stage of a staged or blocked entry is one of those in which a start can be deferred. -/
theorem deferred_planned {e f : CueEntry} {c : ShotContent} {s : State} (copy : e.copy = some c) (take : e.take = f.take)
    (stage : e.stage = .routing ∨ e.stage = .claiming ∨ e.stage = .claimed) :
    deferred e s = (f.take && s.tally.onAir && !c.livePermitted) := by
  rw [deferred_eq copy, take]
  rcases stage with stage | stage | stage <;> simp [stage, Bool.and_assoc, Bool.and_comm (!c.livePermitted)]

section
variable {u : State} {f : CueEntry} {more : List CueEntry}

/-- A head staged by its planning read that does not start: it waits, its deferral told. -/
theorem takeUpHead_settles {f' : CueEntry} {claims : ClaimManager} {bus : BusInterface} (list : u.cues = f :: more)
    (queued : f.stage = .queued) (active : u.control.station = .active)
    (read : planAt 0 u = ({ u with cues := f' :: more, claims := claims, bus := bus }, .staged))
    (waits : f'.stage ≠ .claimed ∨ f'.take = false ∨ deferred f' u = true) :
    takeUpHead u = headSettled f' more (deferred f' u) { u with cues := f' :: more, claims := claims, bus := bus } :=
  takeUpHead_staged list queued active read (testHead_settled rfl waits)

/-- A QUEUED entry that has become head in ACTIVE is read and planned. -/
theorem takeUpHead_planningMakes (list : u.cues = f :: more) (queued : f.stage = .queued)
    (active : u.control.station = .active) : planningMakes u.port.lastSetpoint .leg [] f more u (takeUpHead u) := by
  generalize made : takeUpHead u = t
  unfold planningMakes
  intro kept fails
  have fail : ∀ o : Reason, planAt 0 u = (without [] more (.failed o) f false u, .left) → fails o := by
    intro o read last
    subst last
    obtain ⟨claims, groups, ready, reports⟩ := without_queued (before := []) (after := []) (u := u) (.failed o) (.inl ⟨rfl, rfl⟩) queued
    have done : takeUpHead u = without [] [] (.failed o) f false u := takeUpHead_left list queued active read
    obtain rfl := made.symm.trans done
    exact ⟨⟨rfl, rfl, rfl, rfl, rfl, rfl, rfl, ready⟩, rfl, claims, groups, reports⟩
  refine ⟨fun busy => ?_, fun free inside => ⟨fun empty => fail _ (planAt_empty (before := []) list free inside empty), ?_⟩⟩
  · have done : takeUpHead u = u := takeUpHead_stays list queued active (planAt_writing (before := []) list busy)
    obtain rfl := made.symm.trans done
    exact ⟨⟨rfl, rfl, rfl, rfl, rfl, rfl, rfl, rfl⟩, list, rfl, rfl, rfl⟩
  intro c valid within plan defers told stays
  have read := planAt_within (before := []) list free inside valid within
  refine ⟨fun long => fail _ (read.trans (if_pos long)), fun short => ?_⟩
  have read : planAt 0 u = (enterRouting 0 c plan u, .staged) := read.trans (if_neg (Nat.not_lt.mpr short))
  have settle : ∀ {f' : CueEntry} {claims : ClaimManager} {legs : List Leg} {waits : Bool},
      enterRouting 0 c plan u = { u with cues := f' :: more, claims := claims, bus := busAnnounced legs (onBus u) u.bus } →
      deferred f' u = defers → f'.deferralReported = f.deferralReported → f'.tag = f.tag →
      f'.stage ≠ .claimed ∨ f'.take = false ∨ deferred f' u = true →
      claims = { u.claims with
        own := u.claims.own ++ pendingClaims .leg ⟨f.priority, f.retry⟩ legs
        claimWaitTimer := u.claims.claimWaitTimer || (waits && decide ((configOf u).claimWait ≠ .never)) } →
      stays f' legs waits := by
    intro f' claims legs waits routed same reported tag rests announced
    have done := takeUpHead_settles list queued active (read.trans (by rw [routed])) rests
    obtain ⟨cues, control, profile, port, store, faults, tally, peers, claims', groups, ready, reports⟩ :=
      headSettled_fields (s := { u with cues := f' :: more, claims := claims, bus := busAnnounced legs (onBus u) u.bus })
        (e := f') (rest := more) rfl (deferred f' u)
    rw [← done, made] at cues control profile port store faults tally peers claims' groups ready reports
    refine ⟨⟨control, profile, port, store, faults, tally, peers, by simpa using ready⟩, ?_, groups, claims'.trans announced, ?_⟩
    · rw [cues, same, reported]
      rfl
    · intro room
      rw [reports (by simpa using room), same, reported, tag]
      simp
  refine ⟨fun blocked => ?_, fun i r free waits => ?_⟩
  · refine settle (legs := []) (enterRouting_blocked (before := []) (c := c) list blocked) ?_ rfl rfl (.inl (by simp [blockedEntry])) ?_
    · exact deferred_planned rfl rfl (.inl rfl)
    · simp [claimsWaiting, waitsForFloor_of_blocked blocked, plan]
  · have member : r ∈ plan.candidates := List.mem_of_getElem? free.1
    have stage : (stagedEntry f c plan i r).stage = .claiming ∨ (stagedEntry f c plan i r).stage = .claimed := by
      by_cases empty : r.legs = [] <;> simp [stagedEntry, empty]
    have same : deferred (stagedEntry f c plan i r) u = defers := deferred_planned rfl rfl (.inr stage)
    refine settle (enterRouting_free (before := []) (c := c) list free) same rfl rfl ?_ ?_
    · rcases waits with legs | second | untaken | deferred
      · exact .inl (by simp [stagedEntry, legs])
      · simp at second
      · exact .inr (.inl untaken)
      · exact .inr (.inr (same.trans deferred))
    · simp only [claimsAnnounced, claimsWaiting, waitsForFloor_of_candidate member, plan]
      rfl

/-- A QUEUED entry that has become second behind a RUNNING head in ACTIVE, with no stop in progress, is pre-planned. -/
theorem takeUpSecond_planningMakes {d : CueEntry} {p : Plan} (list : u.cues = d :: f :: more) (running : d.stage = .running)
    (plan : d.plan = some p) (queued : f.stage = .queued) (moves : u.profile.motion ≠ .stopping)
    (active : u.control.station = .active) : planningMakes p.target .nextLeg [d] f more u (takeUpSecond u) := by
  have allowed : prePlanAllowed u = true := by simp [prePlanAllowed_eq list, running, queued, moves, active]
  have starts : planStarts [d].length u = p.target := by simp [planStarts, list, plan]
  generalize made : takeUpSecond u = t
  unfold planningMakes
  intro kept fails
  have fail : ∀ o : Reason, planAt 1 u = (without [d] more (.failed o) f false u, .left) → fails o := by
    intro o read last
    subst last
    obtain ⟨claims, groups, ready, reports⟩ := without_queued (before := [d]) (after := []) (u := u) (.failed o) (.inr ⟨rfl, rfl⟩) queued
    have done : takeUpSecond u = without [d] [] (.failed o) f false u := takeUpSecond_left list allowed read (by simp [without])
    obtain rfl := made.symm.trans done
    exact ⟨⟨rfl, rfl, rfl, rfl, rfl, rfl, rfl, ready⟩, rfl, claims, groups, reports⟩
  refine ⟨fun busy => ?_, fun free inside => ⟨fun empty => fail _ (planAt_empty (before := [d]) list free inside empty), ?_⟩⟩
  · have done : takeUpSecond u = u := takeUpSecond_read list allowed (planAt_writing (before := [d]) list busy) (by simp)
    obtain rfl := made.symm.trans done
    exact ⟨⟨rfl, rfl, rfl, rfl, rfl, rfl, rfl, rfl⟩, list, rfl, rfl, rfl⟩
  intro c valid within built defers told stays
  have read := planAt_within (before := [d]) list free inside valid (by rw [starts]; exact within)
  rw [starts] at read
  refine ⟨fun long => fail _ (read.trans (if_pos long)), fun short => ?_⟩
  have read : planAt 1 u = (enterRouting 1 c built u, .staged) := read.trans (if_neg (Nat.not_lt.mpr short))
  have told_same : ∀ e : CueEntry, e.deferralReported = f.deferralReported → told e = e := by
    intro e same
    show ({ e with deferralReported := f.deferralReported || false } : CueEntry) = e
    rw [Bool.or_false, ← same]
  have settle : ∀ {f' : CueEntry} {claims : ClaimManager} {legs : List Leg} {waits : Bool},
      enterRouting 1 c built u = { u with cues := [d] ++ f' :: more, claims := claims, bus := busAnnounced legs (onBus u) u.bus } →
      f'.deferralReported = f.deferralReported →
      claims = { u.claims with
        own := u.claims.own ++ pendingClaims .nextLeg ⟨f.priority, f.retry⟩ legs
        claimWaitTimer := u.claims.claimWaitTimer || (waits && decide ((configOf u).claimWait ≠ .never)) } →
      stays f' legs waits := by
    intro f' claims legs waits routed reported announced
    have done := takeUpSecond_read list allowed read (by simp)
    rw [routed] at done
    obtain rfl := made.symm.trans done
    refine ⟨⟨rfl, rfl, rfl, rfl, rfl, rfl, rfl, by simp⟩, ?_, rfl, announced, fun _ => by simp [defers]⟩
    rw [told_same f' reported]
  refine ⟨fun blocked => ?_, fun i r free waits => ?_⟩
  · refine settle (legs := []) (enterRouting_blocked (before := [d]) (c := c) list blocked) rfl ?_
    simp [claimsWaiting, waitsForFloor_of_blocked blocked, built]
  · have member : r ∈ built.candidates := List.mem_of_getElem? free.1
    refine settle (enterRouting_free (before := [d]) (c := c) list free) rfl ?_
    simp only [claimsAnnounced, claimsWaiting, waitsForFloor_of_candidate member, built]
    rfl

end

end Sys2Proof.Machine
end

section
/-! The requests to the cue list (chapter 3): CUE refused or accepted, TAKE, GROUP_TAKE and CANCEL. -/
namespace Sys2Proof.Machine

/-! ### CUE refused (R35) -/

theorem cueRefusal_eq {p : CuePayload} {mode : StartMode} {s : State} :
    cueRefusal p mode s =
      if ∃ e ∈ s.cues, e.tag = p.tag then some .duplicateTag
      else if 8 ≤ s.cues.length then some .listFull
      else if 127 < p.shot.toNat then some .badShot
      else if mode = .group ∧ (p.group = 0 ∨ inPedestalSet p.members s.control.number = false) then some .badGroup
      else if mode = .group ∧ ∃ g ∈ s.groups.records, g.group = p.group then some .duplicateGroup
      else if mode = .group ∧ 4 ≤ s.groups.records.length then some .listFull
      else none := by
  have tags : (s.cues.any fun e => e.tag == p.tag) = true ↔ ∃ e ∈ s.cues, e.tag = p.tag := by simp
  have member : (!inPedestalSet p.members s.control.number || p.group == 0) = true ↔
      p.group = 0 ∨ inPedestalSet p.members s.control.number = false := by simp [or_comm]
  have groups : (groupRecord p.group s).isSome = true ↔ ∃ g ∈ s.groups.records, g.group = p.group := by
    simp [groupRecord, List.find?_isSome]
  unfold cueRefusal
  simp only [tags, member, groups, cueCapacity, lastShot, groupCapacity]
  by_cases group : mode = .group
  · simp only [group, true_and, if_true]
    iterate 6 refine ite_congr rfl (fun _ => rfl) fun _ => ?_
    rfl
  · simp only [group, false_and, if_false]

theorem takeCue_faultStop {p : CuePayload} {mode : StartMode} {s : State} (code : cueStartMode p.mode = some mode)
    (stopped : s.control.station = .faultStop) : takeCue p s = pushReport (.cue p.tag (.failed .notActive)) s := by
  simp only [takeCue, code, stopped, reportCue]

theorem takeCue_active {p : CuePayload} {mode : StartMode} {s : State} (code : cueStartMode p.mode = some mode)
    (active : s.control.station = .active) : takeCue p s = acceptCue p mode s := by
  simp only [takeCue, code, active]

theorem acceptCue_refused {p : CuePayload} {mode : StartMode} {r : Reason} {s : State} (refused : cueRefusal p mode s = some r) :
    acceptCue p mode s = pushReport (.cue p.tag (.failed r)) s := by
  simp only [acceptCue, refused, reportCue]

theorem acceptCue_accepted {p : CuePayload} {mode : StartMode} {s : State} (accepted : cueRefusal p mode s = none) :
    acceptCue p mode s = refill s.cues.length (addEntry p mode s) := by
  simp only [acceptCue, accepted]

/-- Settles O22: the tests of R35 in their order. -/
theorem cueRefusedByFirstFailingTest : Obligations.CueRefusedByFirstFailingTest := by
  intro s h p mode r taken code duplicate full range noMember used noRecord why
  refine (next_taken taken _).trans (congrArg _ ?_)
  rcases why with ⟨stopped, rfl⟩ | ⟨active, why⟩
  · exact takeCue_faultStop (s := endSpent s) code stopped
  · rw [takeCue_active (s := endSpent s) code active]
    refine acceptCue_refused ?_
    have eq : cueRefusal p mode (endSpent s) =
        if duplicate then some .duplicateTag else if full then some .listFull else if range then some .badShot
        else if noMember then some .badGroup else if used then some .duplicateGroup else if noRecord then some .listFull
        else none := cueRefusal_eq
    rw [eq]
    rcases why with ⟨a, rfl⟩ | ⟨a, b, rfl⟩ | ⟨a, b, c, rfl⟩ | ⟨a, b, c, d, rfl⟩ | ⟨a, b, c, d, e, rfl⟩ | ⟨a, b, c, d, e, f, rfl⟩
    · rw [if_pos a]
    · rw [if_neg a, if_pos b]
    · rw [if_neg a, if_neg b, if_pos c]
    · rw [if_neg a, if_neg b, if_neg c, if_pos d]
    · rw [if_neg a, if_neg b, if_neg c, if_neg d, if_pos e]
    · rw [if_neg a, if_neg b, if_neg c, if_neg d, if_neg e, if_pos f]

/-! ### CUE accepted (R31, R32, R42) -/

/-- The record an accepted GROUP CUE brings, none for another (R97). -/
def broughtRecord (p : CuePayload) (mode : StartMode) : List GroupRecord :=
  if mode = .group then [newRecord p] else []

theorem addEntry_eq (p : CuePayload) (mode : StartMode) (s : State) :
    addEntry p mode s = { s with
      cues := s.cues ++ [newEntry p mode]
      groups := { s.groups with records := s.groups.records ++ broughtRecord p mode } } := by
  unfold addEntry broughtRecord
  by_cases group : mode = .group <;> simp [group]

/-- The tests of R35 all passed. -/
structure CuePasses (p : CuePayload) (mode : StartMode) (s : State) : Prop where
  tag : ∀ e ∈ s.cues, e.tag ≠ p.tag
  room : s.cues.length < 8
  shot : p.shot.toNat ≤ 127
  group : mode = .group → p.group ≠ 0 ∧ inPedestalSet p.members s.control.number = true ∧
    (∀ g ∈ s.groups.records, g.group ≠ p.group) ∧ s.groups.records.length < 4

theorem CuePasses.accepted {p : CuePayload} {mode : StartMode} {s : State} (h : CuePasses p mode s) :
    cueRefusal p mode s = none := by
  have room := h.room
  have shot := h.shot
  rw [cueRefusal_eq, if_neg, if_neg (by omega), if_neg (by omega), if_neg, if_neg, if_neg]
  · rintro ⟨group, full⟩
    have := (h.group group).2.2.2
    omega
  · rintro ⟨group, g, mem, same⟩
    exact (h.group group).2.2.1 g mem same
  · rintro ⟨group, zero | out⟩
    · exact (h.group group).1 zero
    · simp [(h.group group).2.1] at out
  · rintro ⟨e, mem, same⟩
    exact h.tag e mem same

/-- An accepted CUE: the entry joins the list, and its place is filled. -/
theorem exec_cue_accepted {h : Header} {p : CuePayload} {mode : StartMode} {s : State} (taken : takenFromCue h s)
    (code : cueStartMode p.mode = some mode) (active : s.control.station = .active) (passes : CuePasses p mode s) :
    exec (.cue h p) s = .next (refill s.cues.length (addEntry p mode (endSpent s))) := by
  refine (next_taken taken _).trans (congrArg _ ?_)
  rw [takeCue_active (s := endSpent s) code active, acceptCue_accepted]
  · rfl
  · exact CuePasses.accepted (s := endSpent s) ⟨passes.tag, passes.room, passes.shot, passes.group⟩

/-- The entry's record alone is what its CUE brought. -/
theorem groupsWithout_newEntry {p : CuePayload} {mode : StartMode} {g : Groups}
    (fresh : mode = .group → ∀ r ∈ g.records, r.group ≠ p.group) :
    groupsWithout (newEntry p mode) { g with records := g.records ++ broughtRecord p mode } = g := by
  have queued : (newEntry p mode).stage ≠ .groupWait := by simp [newEntry]
  have kept : (g.records ++ broughtRecord p mode).filter (fun r => decide ((newEntry p mode).group ≠ some r.group)) =
      g.records := by
    by_cases group : mode = .group
    · have others : ∀ r ∈ g.records, decide ((newEntry p mode).group ≠ some r.group) = true := fun r mem => by
        have other := fresh group r mem
        simpa [newEntry, group] using fun same => other same.symm
      rw [List.filter_append, List.filter_eq_self.mpr others]
      simp [broughtRecord, group, newEntry, newRecord]
    · simp [broughtRecord, group, newEntry]
  rw [groupsWithout, kept, if_neg (fun both => queued both.1), if_neg (fun both => queued both.1)]

theorem filter_kind_same {kind : ClaimKind} {own : List OwnClaim} (none : ∀ o ∈ own, o.claim.kind ≠ kind) :
    own.filter (fun o => o.claim.kind != kind) = own :=
  List.filter_eq_self.mpr fun o mem => by simp [none o mem]

/-- Settles O23: the entry joins the list; behind others it stays, as head it is read. -/
theorem acceptedCueJoinsTheList : Obligations.AcceptedCueJoinsTheList := by
  intro s h p mode taken code active tag room shot group e joins
  have run := exec_cue_accepted taken code active ⟨tag, room, shot, group⟩
  have entry : e = newEntry p mode := by simp [e, newEntry, beq_eq_decide]
  have join : addEntry p mode (endSpent s) = joins := by
    rw [addEntry_eq, ← entry]
    rfl
  rw [run, join]
  have asHead : s.cues = [] → joins.cues = e :: [] := fun empty => by simp [joins, empty]
  refine ⟨fun behind => ?_, fun empty busy => ?_, fun empty idle gone others => ?_⟩
  · rcases behind with many | ⟨one, still⟩
    · obtain ⟨n, length⟩ : ∃ n, s.cues.length = n + 2 := ⟨s.cues.length - 2, by omega⟩
      rw [length]
      rfl
    · obtain ⟨d, list⟩ := List.length_eq_one_iff.mp one
      rw [one]
      have no : prePlanAllowed joins = false := by
        rw [prePlanAllowed_eq (d := d) (f := e) (more := []) (by simp [joins, list])]
        have other : d.stage ≠ .running := by simpa [headRunning, list] using still
        simp [other]
      exact congrArg _ (takeUpSecond_no no)
  · rw [empty]
    exact congrArg _ (takeUpHead_stays (asHead empty) rfl active (planAt_writing (before := []) (asHead empty) busy))
  · rw [empty]
    refine congrArg _ ?_
    have read := planAt_empty (before := []) (asHead empty) idle shot gone
    have done : takeUpHead joins = without [] [] (.failed .badShot) e false joins := takeUpHead_left (asHead empty) rfl active read
    have own : (claimsWithout 0 e s.claims).own = s.claims.own :=
      (claimsWithout_own (.inl ⟨rfl, rfl⟩) e s.claims).trans (filter_kind_same others)
    have claims : claimsWithout 0 e s.claims = s.claims := by
      rw [show claimsWithout 0 e s.claims = { s.claims with own := (claimsWithout 0 e s.claims).own } from rfl, own]
    have groups : groupsWithout e joins.groups = s.groups := by
      rw [entry]
      exact groupsWithout_newEntry fun mode => (group mode).2.2.1
    have bus : busWithout 0 (.failed .badShot) e false joins = busAfterReport (.cue p.tag (.failed .badShot)) (endSpent s).bus := by
      have still : decide ((claimsWithout 0 e joins.claims).own ≠ joins.claims.own) = false :=
        decide_eq_false (not_not.mpr own)
      rw [busWithout, still, Bool.false_and, busMarked_false, fifoWithout_quiet (.inl rfl)]
      rw [show joins.bus.readyFifo = (busAfterReport (.cue e.tag (.failed .badShot)) joins.bus).readyFifo by simp]
    show takeUpHead joins = _
    rw [done, pushReport_eq, without]
    rw [show [].length = 0 from rfl, bus, groups, show joins.claims = s.claims from rfl, claims]
    simp [joins, empty, endSpent]

/-! ### TAKE and GROUP_TAKE (R37, R38) -/

theorem setTake_behind {k : Nat} {s : State} (behind : k ≠ 0) : setTake k s = modifyCue k (fun e => { e with take := true }) s := by
  rw [setTake, if_neg behind]

theorem setTake_head {s : State} {e : CueEntry} {rest : List CueEntry} (list : s.cues = e :: rest) :
    setTake 0 s = retestHead { s with cues := { e with take := true } :: rest } := by
  rw [setTake, if_pos rfl]
  exact congrArg retestHead (modifyCue_at (before := []) _ list)

theorem takeTake_known {tag : Byte} {s : State} {before after : List CueEntry} {e : CueEntry} (on : onBus s = true)
    (list : s.cues = before ++ e :: after) (here : e.tag = tag) (earlier : ∀ x ∈ before, x.tag ≠ tag) :
    takeTake tag s = setTake before.length s := by
  rw [takeTake, if_pos on, cueIndex_at list (by simp [here]) (fun x mem => by simp [earlier x mem])]

theorem takeTake_unknown {tag : Byte} {s : State} (on : onBus s = true) (unknown : ∀ x ∈ s.cues, x.tag ≠ tag) :
    takeTake tag s = pushReport (.cue tag (.failed .unknownTag)) s := by
  rw [takeTake, if_pos on, cueIndex_none (fun x mem => by simp [unknown x mem])]
  rfl

theorem takeGroupTake_known {g : Byte} {s : State} {before after : List CueEntry} {e : CueEntry} (on : onBus s = true)
    (list : s.cues = before ++ e :: after) (here : e.group = some g) (earlier : ∀ x ∈ before, x.group ≠ some g) :
    takeGroupTake g s = setTake before.length s := by
  rw [takeGroupTake, if_pos on, cueIndex_at list (by simp [here]) (fun x mem => by simp [earlier x mem])]

theorem takeGroupTake_unknown {g : Byte} {s : State} (on : onBus s = true) (unknown : ∀ x ∈ s.cues, x.group ≠ some g) :
    takeGroupTake g s = s := by
  rw [takeGroupTake, if_pos on, cueIndex_none (fun x mem => by simp [unknown x mem])]

/-- Settles O25. -/
theorem takeSetsTheFlagBehindTheHead : Obligations.TakeSetsTheFlagBehindTheHead := by
  intro s h tag group before after e taken on
  have onSpent : onBus (endSpent s) = true := on
  have takes : exec (.take h tag) s = .next (takeTake tag (endSpent s)) := next_taken taken _
  have groupTakes : exec (.groupTake h group) s = .next (takeGroupTake group (endSpent s)) := next_taken taken _
  refine ⟨fun unknown => ?_, fun unknown => ?_, fun behind list => ⟨fun here earlier => ?_, fun here earlier => ?_⟩⟩
  · rw [takes, takeTake_unknown onSpent unknown]
  · rw [groupTakes, takeGroupTake_unknown onSpent unknown]
  · rw [takes, takeTake_known onSpent list here earlier, setTake_behind (mt List.length_eq_zero_iff.mp behind), modifyCue_at _ (s := endSpent s) list]
  · rw [groupTakes, takeGroupTake_known onSpent list here earlier, setTake_behind (mt List.length_eq_zero_iff.mp behind),
      modifyCue_at _ (s := endSpent s) list]

/-- Settles O27. -/
theorem groupTakeEntersGroupWait : Obligations.GroupTakeEntersGroupWait := by
  intro s h g e rest c p taken on list group mode claimed copy plan free waits
  let t : State := { endSpent s with cues := { e with take := true } :: rest }
  have goes : deferred { e with take := true } t = false := by
    rw [deferred_eq (e := { e with take := true }) copy]
    rcases free with live | off
    · simp [live]
    · simp [t, off]
  have test := testHead_group (s := t) rfl goes claimed rfl mode
  have run : exec (.groupTake h g) s = .next (retestHead t) := by
    refine (next_taken taken _).trans ?_
    rw [takeGroupTake_known (before := []) (s := endSpent s) on list group (by simp)]
    exact congrArg _ (setTake_head (s := endSpent s) list)
  have enters : exec (.groupTake h g) s =
      .next { s with
        cues := { e with take := true, stage := .groupWait } :: rest
        groups := { s.groups with waitTimer := true }
        bus := { s.bus with
          spent := false
          readyFifo := fifoJoined ⟨g, e.tag, p.duration, (configOf s).startDelay, false, false⟩ (readySent s) s.bus.readyFifo } } := by
    rw [run, retestHead_of test]
    simp only [group, Option.getD_some, ownDuration, plan, Option.map_some]
    rfl
  refine ⟨fun room => ?_, fun sent kept later w fifo full length unwithdrawn withdrawn => ?_⟩
  · show exec _ s = _
    rw [enters, fifoJoined_room room]
  · show exec _ s = _
    rw [enters, fifo, ← length, fifoJoined_full (fifo ▸ full) unwithdrawn withdrawn]

end Sys2Proof.Machine
end

section
/-! Entries that leave the list: a withdrawal placed, one entry cancelled, and every entry that is not running removed (R39, R41,
R50, R102, R108). -/
namespace Sys2Proof.Machine

/-! ### A withdrawal placed (R102) -/

theorem isReadiness_iff {g : Byte} {q : QueuedReady} : isReadiness g q = true ↔ q.group = g ∧ q.withdrawn = false := by
  simp [isReadiness]

theorem replaceReadiness_first {g : Byte} {w q : QueuedReady} {before after : List QueuedReady}
    (earlier : ∀ x ∈ before, isReadiness g x = false) (here : isReadiness g q = true) :
    replaceReadiness g w (before ++ q :: after) = before ++ w :: after := by
  induction before with
  | nil => simp [replaceReadiness, here]
  | cons b bs ih =>
    have first : isReadiness g b = false := earlier b (by simp)
    simp [replaceReadiness, first, ih fun x mem => earlier x (by simp [mem])]

section
variable {g tag : Byte} {sent later : List QueuedReady}

/-- A readiness that is not in transmission is replaced by its withdrawal. -/
theorem fifoWithdrawn_replaces {before after : List QueuedReady} {q : QueuedReady} (at_ : later = before ++ q :: after)
    (earlier : ∀ x ∈ before, isReadiness g x = false) (here : isReadiness g q = true) :
    fifoWithdrawn g tag sent.length (sent ++ later) = sent ++ before ++ ⟨g, tag, 0, 0, true, false⟩ :: after := by
  subst at_
  rw [fifoWithdrawn, List.drop_left, List.take_left, if_pos (by simp [here]), replaceReadiness_first earlier here,
    List.append_assoc]

/-- With no readiness left to replace, the one in transmission is marked and the withdrawal joins the end. -/
theorem fifoWithdrawn_joins (none : ∀ x ∈ later, isReadiness g x = false) :
    fifoWithdrawn g tag sent.length (sent ++ later) =
      fifoJoined ⟨g, tag, 0, 0, true, false⟩ sent.length (sent.map (orphaned g) ++ later) := by
  rw [fifoWithdrawn, List.drop_left, List.take_left, if_neg]
  simp only [List.any_eq_true, not_exists, not_and]
  exact fun x mem => by simp [none x mem]

end

theorem orphaned_eq (g : Byte) (q : QueuedReady) :
    orphaned g q = if q.group = g ∧ q.withdrawn = false then { q with orphan := true } else q := by
  unfold orphaned
  by_cases own : q.group = g ∧ q.withdrawn = false
  · rw [if_pos (isReadiness_iff.mpr own), if_pos own]
  · rw [if_neg (mt isReadiness_iff.mp own), if_neg own]

theorem withdrawalPlaced_of {g tag : Byte} {s t : State}
    (fifo : t.bus.readyFifo = fifoWithdrawn g tag (readySent s) s.bus.readyFifo) : withdrawalPlaced g tag s t := by
  intro sent later split length own marked withdrawal
  have notOwn : ∀ {x : QueuedReady}, ¬own x → isReadiness g x = false := fun no =>
    Bool.eq_false_iff.mpr (mt isReadiness_iff.mp no)
  have marks : sent.map (orphaned g) = marked := List.map_congr_left fun q _ => orphaned_eq g q
  rw [split, ← length] at fifo
  refine ⟨fun before q after at_ earlier here => ?_, fun none => ?_⟩
  · rw [fifo, fifoWithdrawn_replaces at_ (fun x mem => notOwn (earlier x mem)) (isReadiness_iff.mpr here)]
  · rw [fifoWithdrawn_joins fun x mem => notOwn (none x mem), marks] at fifo
    have size : (marked ++ later).length = s.bus.readyFifo.length := by simp [split, marked]
    refine ⟨fun room => ?_, fun kept w after at_ full unwithdrawn withdrawn => ?_⟩
    · rw [fifo, fifoJoined_room (by omega)]
    · have sized : sent.length = marked.length := by simp [marked]
      rw [fifo, at_, sized, ← List.append_assoc, fifoJoined_full ?_ unwithdrawn withdrawn]
      rw [List.append_assoc, ← at_]
      omega

/-! ### One entry cancelled -/

theorem groupRecord_group {g : Byte} {r : GroupRecord} {s : State} (found : groupRecord g s = some r) : r.group = g := by
  simpa using List.find?_some found

/-- What an entry in GROUP_WAIT leaves of its group. -/
theorem leavesGroupWait_without {s : State} {before after : List CueEntry} {e : CueEntry} {o : CueOutcome} {r : GroupRecord}
    (waits : e.stage = .groupWait) (group : e.group = some r.group) (record : groupRecord r.group s = some r) :
    leavesGroupWait r e.tag s (without before after o e true s) := by
  have state : entryGroupState e s = some r.state := by simp [entryGroupState, group, record]
  refine ⟨by simp [without, groupsWithout, waits, group], by simp [without, groupsWithout, waits, group],
    fun collecting => withdrawalPlaced_of ?_, fun other => ?_⟩
  · show fifoWithout e true s = _
    rw [fifoWithout, if_pos (by simp [waits, state, collecting]), group]
    rfl
  · exact fifoWithout_quiet (.inr (.inr (by simp [state, other])))

theorem entryCancelled_without {s : State} {before after : List CueEntry} {e : CueEntry} {kind : ClaimKind}
    (place : (before.length = 0 ∧ kind = .leg) ∨ (before.length = 1 ∧ kind = .nextLeg)) (still : e.stage ≠ .running) :
    entryCancelled e kind (before ++ after) s (without before after .cancelled e true s) := by
  refine ⟨rfl, claimsWithout_own place e s.claims, rfl, fun past => ?_, fun queued => ?_, fun room => ?_, rfl, fun quiet => ?_,
    fun r waits group record => leavesGroupWait_without waits group record, rfl, rfl, rfl, rfl, rfl, rfl, rfl⟩
  · simp [without, claimsWithout, past, still]
  · simp [without, claimsWithout, queued]
  · exact busAfterReport_room room
  · have quietFifo : e.stage ≠ .groupWait ∨ entryGroupState e s ≠ some .collecting :=
      quiet.imp_right fun none => by simp [entryGroupState, none]
    refine ⟨?_, ?_, fifoWithout_quiet (.inr quietFifo)⟩ <;> rcases quiet with other | none <;>
      simp [without, groupsWithout, *]

/-! ### Many entries removed -/

/-- The entries `es` behind `before` leave one after another (R41, R50). -/
def withoutAll (before : List CueEntry) (o : CueOutcome) : List CueEntry → State → State
  | [], s => s
  | e :: es, s => withoutAll before o es (without before es o e true s)

theorem removeFrom_eq {before es : List CueEntry} {o : CueOutcome} {s : State} (list : s.cues = before ++ es) :
    removeFrom before.length o es.length s = withoutAll before o es s := by
  induction es generalizing s with
  | nil => rfl
  | cons e es ih =>
    rw [List.length_cons, removeFrom, removeAt_eq o true list, ih rfl]
    rfl

theorem removeIdle_all {o : CueOutcome} {s : State} (still : headRunning s = false) :
    removeIdle o s = withoutAll [] o s.cues s := by
  rw [removeIdle, still]
  exact removeFrom_eq (before := []) rfl

theorem removeIdle_behind {o : CueOutcome} {s : State} {e : CueEntry} {rest : List CueEntry} (list : s.cues = e :: rest)
    (running : e.stage = .running) : removeIdle o s = withoutAll [e] o rest s := by
  have runs : headRunning s = true := by simp [headRunning, list, running]
  rw [removeIdle, runs, if_pos rfl, list]
  exact removeFrom_eq (before := [e]) list

section
variable (before : List CueEntry) (o : CueOutcome)

theorem withoutAll_cues {es : List CueEntry} {s : State} (list : s.cues = before ++ es) : (withoutAll before o es s).cues = before := by
  induction es generalizing s with
  | nil => simpa [withoutAll] using list
  | cons e es ih => exact ih rfl

/-- What no removal changes. -/
theorem withoutAll_kept (es : List CueEntry) (s : State) :
    ∃ cues groups claims bus, withoutAll before o es s = { s with cues := cues, groups := groups, claims := claims, bus := bus } ∧
      claims.overlap = s.claims.overlap ∧ (s.bus.stateMarker = true → bus.stateMarker = true) := by
  induction es generalizing s with
  | nil => exact ⟨s.cues, s.groups, s.claims, s.bus, rfl, rfl, id⟩
  | cons e es ih =>
    obtain ⟨cues, groups, claims, bus, eq, overlap, marker⟩ := ih (without before es o e true s)
    refine ⟨cues, groups, claims, bus, eq, overlap, fun set => marker ?_⟩
    show (busWithout before.length o e true s).stateMarker = true
    simp [busWithout, set]

theorem withoutAll_records (es : List CueEntry) (s : State) :
    ∀ r ∈ (withoutAll before o es s).groups.records, r ∈ s.groups.records ∧ ∀ x ∈ es, x.group ≠ some r.group := by
  induction es generalizing s with
  | nil => exact fun r mem => ⟨mem, fun x among => absurd among List.not_mem_nil⟩
  | cons e es ih =>
    intro r mem
    obtain ⟨left, others⟩ := ih (without before es o e true s) r mem
    have left : r ∈ s.groups.records.filter fun r => decide (e.group ≠ some r.group) := left
    obtain ⟨was, other⟩ := List.mem_filter.mp left
    exact ⟨was, List.forall_mem_cons.mpr ⟨by simpa using other, others⟩⟩

/-- With no entry in GROUP_WAIT among them the group timers and the READY FIFO stay. -/
theorem withoutAll_quiet {es : List CueEntry} (quiet : ∀ x ∈ es, x.stage ≠ .groupWait) (s : State) :
    (withoutAll before o es s).bus.readyFifo = s.bus.readyFifo ∧
      (withoutAll before o es s).groups.waitTimer = s.groups.waitTimer ∧
      (withoutAll before o es s).groups.startDelay = s.groups.startDelay := by
  induction es generalizing s with
  | nil => exact ⟨rfl, rfl, rfl⟩
  | cons e es ih =>
    obtain ⟨here, later⟩ := List.forall_mem_cons.mp quiet
    obtain ⟨fifo, wait, delay⟩ := ih later (without before es o e true s)
    have fifo' : (without before es o e true s).bus.readyFifo = s.bus.readyFifo := fifoWithout_quiet (.inr (.inl here))
    refine ⟨fifo.trans fifo', wait.trans ?_, delay.trans ?_⟩ <;> simp [without, groupsWithout, here]

theorem withoutAll_own (es : List CueEntry) (s : State) :
    (withoutAll before o es s).claims.own =
      if es = [] then s.claims.own else s.claims.own.filter fun c => !ownedAt before.length c := by
  induction es generalizing s with
  | nil => rfl
  | cons e es ih =>
    rw [withoutAll, ih, if_neg (List.cons_ne_nil e es)]
    show (if es = [] then (claimsWithout before.length e s.claims).own else _) = _
    split
    · rfl
    · show ((claimsWithout before.length e s.claims).own).filter _ = _
      simp [claimsWithout, List.filter_filter]

theorem withoutAll_reports (es : List CueEntry) (s : State) (room : s.bus.reportFifo.length + es.length ≤ 8) :
    (withoutAll before o es s).bus.reportFifo = s.bus.reportFifo ++ es.map fun x => .cue x.tag o := by
  induction es generalizing s with
  | nil => simp [withoutAll]
  | cons e es ih =>
    rw [List.length_cons] at room
    have reported : (without before es o e true s).bus.reportFifo = s.bus.reportFifo ++ [.cue e.tag o] :=
      busAfterReport_room (by omega)
    rw [withoutAll, ih _ (by rw [reported, List.length_append, List.length_singleton]; omega), reported]
    simp

end

end Sys2Proof.Machine
end

section
/-! CANCEL of a tag and of all (R39 to R41, R109). -/
namespace Sys2Proof.Machine

theorem takeCancel_known {tag : Byte} {s : State} {before after : List CueEntry} {e : CueEntry} (on : onBus s = true)
    (list : s.cues = before ++ e :: after) (here : e.tag = tag) (earlier : ∀ x ∈ before, x.tag ≠ tag) :
    takeCancel tag s = cancelAt before.length s := by
  rw [takeCancel, if_pos on, cueIndex_at list (by simp [here]) (fun x mem => by simp [earlier x mem])]

theorem takeCancel_unknown {tag : Byte} {s : State} (on : onBus s = true) (unknown : ∀ x ∈ s.cues, x.tag ≠ tag) :
    takeCancel tag s = pushReport (.cue tag (.failed .unknownTag)) s := by
  rw [takeCancel, if_pos on, cueIndex_none (fun x mem => by simp [unknown x mem])]
  rfl

theorem cancelAt_still {k : Nat} {s : State} (still : k ≠ 0 ∨ headRunning s = false) :
    cancelAt k s = leaveAt k .cancelled true s := by
  rw [cancelAt, if_neg]
  rintro ⟨head, running⟩
  rcases still with behind | still
  · exact behind head
  · simp [running] at still

theorem cancelAt_running {s : State} (running : headRunning s = true) : cancelAt 0 s = cancelRunning s := by
  rw [cancelAt, if_pos ⟨rfl, running⟩]

theorem cancelRunning_stopping {s : State} (stopping : s.profile.motion = .stopping) : cancelRunning s = s := by
  rw [cancelRunning, if_pos stopping]

/-- A CANCEL of a running or held move begins its stop (R40). -/
theorem cancelRunning_moving {s : State} {e : CueEntry} {rest : List CueEntry} (list : s.cues = e :: rest)
    (moving : s.profile.motion = .running ∨ s.profile.motion = .held) :
    cancelRunning s = { s with
      cues := { e with ending := some .cancelled } :: rest
      profile := { s.profile with motion := .stopping, stopKind := some .cancel }
      bus := busMarked (onBus s) s.bus
      port := { s.port with blanking := blankingAfterStop s } } := by
  have fresh : s.profile.motion ≠ .stopping := by rcases moving with m | m <;> simp [m]
  have moves : s.profile.motion ≠ .idle := by rcases moving with m | m <;> simp [m]
  have eq := modifyCue_at (before := []) (fun e => { e with ending := some .cancelled }) list
  rw [cancelRunning, if_neg fresh, show modifyCue 0 _ s = _ from eq, beginStop_eq _ (by exact moves)]
  have marks : decide (s.profile.motion ≠ .stopping) = true := by simp [fresh]
  dsimp only
  rw [marks, Bool.true_and]
  rfl

/-- An entry behind the second owns no rectangle, so its leaving is tested for no overlap (R85). -/
theorem leaveAt_behind {s : State} {before after : List CueEntry} {e : CueEntry} (list : s.cues = before ++ e :: after)
    (behind : 2 ≤ before.length) (queued : e.stage = .queued) (o : CueOutcome) (withdraw : Bool) :
    leaveAt before.length o withdraw s = pushReport (.cue e.tag o) { s with
      cues := before ++ after
      groups := { s.groups with records := s.groups.records.filter fun r => decide (e.group ≠ some r.group) } } := by
  obtain ⟨n, length⟩ : ∃ n, before.length = n + 2 := ⟨before.length - 2, by omega⟩
  have own : s.claims.own.filter (fun c => !ownedAt before.length c) = s.claims.own :=
    List.filter_eq_self.mpr fun c _ => by simp [length, ownedAt]
  have claims : claimsWithout before.length e s.claims = s.claims := by
    rw [claimsWithout, own, if_pos (.inl queued), if_pos (.inl queued)]
  have groups : groupsWithout e s.groups =
      { s.groups with records := s.groups.records.filter fun r => decide (e.group ≠ some r.group) } := by
    simp [groupsWithout, queued]
  have bus : busWithout before.length o e withdraw s = busAfterReport (.cue e.tag o) s.bus := by
    rw [busWithout, claims, fifoWithout_quiet (.inr (.inl (by simp [queued]))), decide_eq_false (not_not.mpr rfl),
      Bool.false_and, busMarked_false, ← busAfterReport_readyFifo (.cue e.tag o) s.bus]
  have filled : ∀ t, refill before.length t = t := fun t => by rw [length]; rfl
  have same : heldClaims s = heldClaims (without before after o e withdraw s) := by
    rw [heldClaims, heldClaims, without, claims]
  rw [leaveAt, removeAt_eq _ _ list, filled, overlapAfter, overlapAfterBy, if_pos same, pushReport_eq, without, claims, groups, bus]

/-- Settles O28. -/
theorem cancelRemovesTheEntryOrBeginsAStop : Obligations.CancelRemovesTheEntryOrBeginsAStop := by
  intro s h tag before after e taken on
  have run : exec (.cancel h tag) s = .next (takeCancel tag (endSpent s)) := next_taken taken _
  have onSpent : onBus (endSpent s) = true := on
  refine ⟨fun unknown => ?_, fun list behind here earlier queued => ?_, fun list here still none => ?_,
    fun d list first here still none => ?_, fun list here running => ?_⟩
  · rw [run, takeCancel_unknown onSpent unknown]
  · rw [run, takeCancel_known onSpent list here earlier, cancelAt_still (.inl (by omega)),
      leaveAt_behind (s := endSpent s) list behind queued, here]
    rfl
  · have idle : headRunning (endSpent s) = false := by simp [headRunning, list, still]
    have runs : exec (.cancel h tag) s = .next (takeUpHead (without [] after .cancelled e true (endSpent s))) := by
      rw [run, takeCancel_known (before := []) onSpent list here (by simp), cancelAt_still (.inr idle),
        leaveAt_eq (before := []) _ _ (s := endSpent s) list none]
      rfl
    refine ⟨without [] after .cancelled e true (endSpent s), entryCancelled_without (before := []) (.inl ⟨rfl, rfl⟩) still,
      fun last => ?_, fun f more behind queued active => ⟨_, runs, ?_⟩⟩
    · subst last
      rw [runs, takeUpHead_nil rfl]
    · exact takeUpHead_planningMakes (u := without [] after .cancelled e true (endSpent s)) behind queued active
  · have runs : exec (.cancel h tag) s = .next (takeUpSecond (without [d] after .cancelled e true (endSpent s))) := by
      rw [run, takeCancel_known (before := [d]) onSpent list here (by simpa using first), cancelAt_still (.inl (by simp)),
        leaveAt_eq (before := [d]) _ _ (s := endSpent s) list none]
      rfl
    refine ⟨without [d] after .cancelled e true (endSpent s), entryCancelled_without (before := [d]) (.inr ⟨rfl, rfl⟩) still,
      fun stays => ?_, fun f more p behind queued moves plan free active => ⟨_, runs, ?_⟩⟩
    · rw [runs, takeUpSecond_no]
      cases after with
      | nil => exact prePlanAllowed_short (by simp [without])
      | cons f more =>
        rw [prePlanAllowed_eq (d := d) (f := f) (more := more) rfl]
        rcases stays with last | other | stopping | inactive
        · simp at last
        · simp [other]
        · simp [without, stopping]
        · simp [without, inactive]
    · subst behind
      exact takeUpSecond_planningMakes (u := without [d] (f :: more) .cancelled e true (endSpent s)) rfl moves plan queued free active
  · have runs : exec (.cancel h tag) s = .next (cancelRunning (endSpent s)) := by
      rw [run, takeCancel_known (before := []) onSpent list here (by simp)]
      exact congrArg _ (cancelAt_running (by simp [headRunning, list, running]))
    refine ⟨fun stopping => by rw [runs, cancelRunning_stopping (s := endSpent s) stopping], fun moving => ⟨_, runs, ?_⟩⟩
    rw [cancelRunning_moving (s := endSpent s) list moving]
    exact ⟨rfl, rfl, by simp [onSpent], rfl, rfl, rfl, rfl, rfl, rfl, rfl, rfl⟩

/-- What a CANCEL of a running head changes, whatever its motion: its ending, the motion, the STATE marker, the blanking. -/
theorem cancelRunning_only {s : State} {e : CueEntry} {rest : List CueEntry} (list : s.cues = e :: rest) :
    ∃ ending profile window marks, cancelRunning s = { s with
      cues := { e with ending := ending } :: rest
      profile := profile
      port := { s.port with blanking := window }
      bus := busMarked marks s.bus } := by
  by_cases stopping : s.profile.motion = .stopping
  · refine ⟨e.ending, s.profile, s.port.blanking, false, ?_⟩
    rw [cancelRunning_stopping stopping, busMarked_false, ← list]
  · have eq := modifyCue_at (before := []) (fun e => { e with ending := some .cancelled }) list
    rw [cancelRunning, if_neg stopping, show modifyCue 0 _ s = _ from eq, beginStop, setMotion_eq, retarget]
    split
    · exact ⟨_, _, _, _, rfl⟩
    · exact ⟨_, _, s.port.blanking, _, rfl⟩

theorem takeCancelAll_noPeers {s : State} (on : onBus s = true) (none : s.peers = []) :
    takeCancelAll s = removeIdle .cancelled (if headRunning s then cancelRunning s else s) := by
  rw [takeCancelAll, if_pos on]
  refine overlapAfter_noPeers _ ((kept_peers (kept_removeIdle _ _)).trans ?_)
  split
  · unfold cancelRunning
    split
    · exact none
    · exact (kept_peers (kept_beginStop _ _)).trans none
  · exact none

/-- CANCEL of all with no head running: every entry leaves, in list order. -/
theorem takeCancelAll_idle {s : State} (on : onBus s = true) (none : s.peers = []) (still : headRunning s = false) :
    takeCancelAll s = withoutAll [] .cancelled s.cues s := by
  rw [takeCancelAll_noPeers on none, still]
  exact removeIdle_all still

/-- CANCEL of all with a head running: its stop begins, and the entries behind it leave. -/
theorem takeCancelAll_running {s : State} {e : CueEntry} {rest : List CueEntry} (on : onBus s = true) (none : s.peers = [])
    (list : s.cues = e :: rest) (running : e.stage = .running) :
    ∃ ending, (cancelRunning s).cues = { e with ending := ending } :: rest ∧
      takeCancelAll s = withoutAll [{ e with ending := ending }] .cancelled rest (cancelRunning s) := by
  obtain ⟨ending, profile, window, marks, eq⟩ := cancelRunning_only list
  have cues : (cancelRunning s).cues = { e with ending := ending } :: rest := by rw [eq]
  have runs : headRunning s = true := by simp [headRunning, list, running]
  refine ⟨ending, cues, ?_⟩
  rw [takeCancelAll_noPeers on none, runs, if_pos rfl]
  exact removeIdle_behind cues running

/-- What the removal of entries leaves of the machine beside list, groups and claims. -/
theorem withoutAll_rest (before : List CueEntry) (o : CueOutcome) (es : List CueEntry) (s : State) :
    (withoutAll before o es s).control = s.control ∧ (withoutAll before o es s).store = s.store ∧
      (withoutAll before o es s).faults = s.faults ∧ (withoutAll before o es s).tally = s.tally ∧
      (withoutAll before o es s).port = s.port ∧ (withoutAll before o es s).profile = s.profile := by
  obtain ⟨cues, groups, claims, bus, eq, _⟩ := withoutAll_kept before o es s
  rw [eq]
  exact ⟨rfl, rfl, rfl, rfl, rfl, rfl⟩

/-- Settles O29: the entries leave one after another, a running head beginning its stop first. -/
theorem cancelAllEmptiesTheList : Obligations.CancelAllEmptiesTheList := by
  intro s h e rest taken on none list
  have run : exec (.cancelAll h) s = .next (takeCancelAll (endSpent s)) := next_taken taken _
  refine ⟨_, run, ?_⟩
  by_cases running : e.stage = .running
  case neg =>
    have still : headRunning (endSpent s) = false := by simp [headRunning, list, running]
    rw [takeCancelAll_idle (s := endSpent s) on none still, show (endSpent s).cues = s.cues from rfl]
    obtain ⟨control, store, faults, tally, port, profile⟩ := withoutAll_rest [] .cancelled s.cues (endSpent s)
    refine ⟨control, store, faults, tally, congrArg _ port, fun x mem _ g group r left same => ?_, fun quiet => ?_,
      fun r waits quiet group record => ?_, fun _ => ⟨withoutAll_cues [] _ rfl, profile, ?_, fun room => ?_⟩,
      fun other => absurd other running⟩
    · exact (withoutAll_records [] _ _ _ r left).2 x mem (group.trans (congrArg some same.symm))
    · exact (withoutAll_quiet [] _ quiet _).1
    · obtain ⟨wait, delay, placed, kept⟩ := leavesGroupWait_without (s := endSpent s) (before := []) (after := rest)
        (o := .cancelled) waits group record
      obtain ⟨fifo', wait', delay'⟩ := withoutAll_quiet [] .cancelled quiet (without [] rest .cancelled e true (endSpent s))
      rw [list]
      refine ⟨wait'.trans wait, delay'.trans delay, fun collecting => ?_, fun other => fifo'.trans (kept other)⟩
      intro sent later split length
      exact fifo' ▸ placed collecting sent later split length
    · rw [withoutAll_own, if_neg (by simp [list])]
      rfl
    · exact withoutAll_reports [] _ _ (endSpent s) room
  case pos =>
    obtain ⟨ending, cues, eq⟩ := takeCancelAll_running (s := endSpent s) on none list running
    rw [eq]
    obtain ⟨_, profile', window, marks, only⟩ := cancelRunning_only (s := endSpent s) list
    obtain ⟨control, store, faults, tally, port, profile⟩ := withoutAll_rest [{ e with ending := ending }] .cancelled rest
      (cancelRunning (endSpent s))
    refine ⟨control.trans (by rw [only]; rfl), store.trans (by rw [only]; rfl), faults.trans (by rw [only]; rfl),
      tally.trans (by rw [only]; rfl), (congrArg _ port).trans (by rw [only]; rfl), fun x mem idle g group r left same => ?_,
      fun quiet => ?_, fun r waits => by simp [running] at waits, fun other => absurd running other, fun _ moving => ?_⟩
    · have behind : x ∈ rest := by
        rw [list] at mem
        exact (List.mem_cons.mp mem).resolve_left fun head => idle (head ▸ running)
      exact (withoutAll_records _ _ _ _ r left).2 x behind (group.trans (congrArg some same.symm))
    · refine ((withoutAll_quiet _ _ (fun x mem => quiet x (by simp [list, mem])) _).1).trans ?_
      rw [only]
      rfl
    · have begun := cancelRunning_moving (s := endSpent s) list moving
      have ended : ending = some .cancelled := by
        rw [begun] at cues
        simpa using cues.symm
      subst ended
      obtain ⟨_, _, _, _, keeps, _, marker⟩ := withoutAll_kept [{ e with ending := some .cancelled }] .cancelled rest
        (cancelRunning (endSpent s))
      refine ⟨withoutAll_cues _ _ cues, ?_, profile.trans (by rw [begun]; rfl), ?_, fun room => ?_⟩
      · rw [keeps]
        refine marker ?_
        rw [begun]
        simp [show onBus (endSpent s) = true from on]
      · rw [withoutAll_own, begun]
        rfl
      · rw [withoutAll_reports _ _ _ _ (by rw [begun]; exact room), begun]
        rfl

end Sys2Proof.Machine
end

section
/-! Entry to FAULT_STOP: what a raise of STOP severity makes of the machine (R50, R123, R124, R164, R166). -/
namespace Sys2Proof.Machine

/-! ### The overlap test at entry to FAULT_STOP -/

/-- What an overlap test that raises flags alone may change: the overlap set, the flags of FLOOR_OVERLAP, and the bus interface,
whose STATE marker and reports stay (R84, log 14). -/
def OverlapNoted (s t : State) : Prop :=
  ∃ overlap faults bus,
    t = { s with claims := { s.claims with overlap := overlap }, faults := faults, bus := bus } ∧
      (∀ c, c ≠ .floorOverlap → faults.get c = s.faults.get c) ∧ (s.bus.stateMarker = true → bus.stateMarker = true) ∧
      s.bus.reportFifo <+: bus.reportFifo

theorem OverlapNoted.refl (s : State) : OverlapNoted s s :=
  ⟨s.claims.overlap, s.faults, s.bus, rfl, fun _ _ => rfl, id, ⟨[], List.append_nil _⟩⟩

theorem OverlapNoted.trans {s t u : State} (first : OverlapNoted s t) (second : OverlapNoted t u) : OverlapNoted s u := by
  obtain ⟨_, _, _, rfl, others, marker, reports⟩ := first
  obtain ⟨overlap, faults, bus, rfl, others', marker', reports'⟩ := second
  exact ⟨overlap, faults, bus, rfl, fun c other => (others' c other).trans (others c other), marker' ∘ marker,
    reports.trans reports'⟩

theorem overlapNoted_raiseFlags (n : FaultName) (s : State) : OverlapNoted s (raiseFlags .floorOverlap n s) := by
  rw [raiseFlags_eq]
  exact ⟨s.claims.overlap, _, _, rfl, fun c other => by simp [other],
    fun set => by simp [busAfterRaise_stateMarker, set], busAfterRaise_reports _ _ _⟩

theorem overlapNoted_setOverlap (l : List Nat) (s : State) : OverlapNoted s (setOverlap l s) :=
  ⟨l, s.faults, s.bus, rfl, fun _ _ => rfl, id, ⟨[], List.append_nil _⟩⟩

theorem overlapNoted_test (n : Nat) (s : State) : OverlapNoted s (overlapTestBy raiseFlags n s) := by
  unfold overlapTestBy
  split
  · exact .refl s
  · split
    · split
      · exact .refl s
      · exact (overlapNoted_setOverlap _ s).trans (overlapNoted_raiseFlags _ _)
    · exact overlapNoted_setOverlap _ s

theorem overlapNoted_after (b s : State) : OverlapNoted s (overlapAfterBy raiseFlags b s) := by
  have all : ∀ (l : List Nat) (t : State), OverlapNoted t (l.foldl (fun t n => overlapTestBy raiseFlags n t) t) := by
    intro l
    induction l with
    | nil => exact fun t => .refl t
    | cons n l ih => exact fun t => (overlapNoted_test n t).trans (ih _)
  unfold overlapAfterBy
  split
  · exact .refl s
  · exact all _ s

/-! ### The list at entry to FAULT_STOP -/

/-- The running head at entry to FAULT_STOP: its ending is FAILED FAULT unless it has one (R50). -/
def faultEnded (e : CueEntry) : CueEntry := { e with ending := some (e.ending.getD (.failed .fault)) }

/-- The list at entry to FAULT_STOP: the running head alone, or nothing (R50). -/
def listStopped : List CueEntry → List CueEntry
  | [] => []
  | e :: _ => if e.stage = .running then [faultEnded e] else []

theorem listStopped_still {s : State} (still : headRunning s = false) : listStopped s.cues = [] := by
  cases list : s.cues with
  | nil => rfl
  | cons e rest =>
    have other : e.stage ≠ .running := by simpa [headRunning, list] using still
    rw [listStopped, if_neg other]

/-- A removal only adds to the report FIFO. -/
theorem withoutAll_reports_grow (before : List CueEntry) (o : CueOutcome) (es : List CueEntry) (s : State) :
    s.bus.reportFifo <+: (withoutAll before o es s).bus.reportFifo := by
  induction es generalizing s with
  | nil => exact ⟨[], List.append_nil _⟩
  | cons e es ih =>
    refine List.IsPrefix.trans ?_ (ih (without before es o e true s))
    show s.bus.reportFifo <+: (busAfterReport (.cue e.tag o) s.bus).reportFifo
    rw [busAfterReport_reportFifo]
    split
    · exact ⟨_, rfl⟩
    · exact ⟨[], List.append_nil _⟩

theorem failList_still {s : State} (still : headRunning s = false) : failList s = withoutAll [] (.failed .fault) s.cues s := by
  rw [failList, if_neg (by simp [still]), removeIdle_all still]

theorem failList_running {s : State} {e : CueEntry} {rest : List CueEntry} (list : s.cues = e :: rest)
    (running : e.stage = .running) :
    failList s = withoutAll [faultEnded e] (.failed .fault) rest { s with cues := faultEnded e :: rest } := by
  have runs : headRunning s = true := by simp [headRunning, list, running]
  have ended : setHeadEnding (.failed .fault) s = { s with cues := faultEnded e :: rest } := by
    simp [setHeadEnding, modifyCue, list, faultEnded]
  rw [failList, if_pos runs, ended]
  exact removeIdle_behind rfl running

theorem listStopped_running {e : CueEntry} {rest : List CueEntry} (running : e.stage = .running) :
    listStopped (e :: rest) = [faultEnded e] := by
  rw [listStopped, if_pos running]

theorem headRunning_true {s : State} (runs : headRunning s = true) : ∃ e rest, s.cues = e :: rest ∧ e.stage = .running := by
  cases list : s.cues with
  | nil => simp [headRunning, list] at runs
  | cons e rest => exact ⟨e, rest, rfl, by simpa [headRunning, list] using runs⟩

/-- What failing the list changes beside it: groups, claims and the bus interface. -/
theorem failList_kept (s : State) :
    ∃ groups claims bus,
      failList s = { s with cues := listStopped s.cues, groups := groups, claims := claims, bus := bus } ∧
        (s.bus.stateMarker = true → bus.stateMarker = true) ∧ s.bus.reportFifo <+: bus.reportFifo := by
  have removed : ∀ (before es : List CueEntry) (t : State), t.cues = before ++ es →
      ∃ groups claims bus,
        withoutAll before (.failed .fault) es t = { t with cues := before, groups := groups, claims := claims, bus := bus } ∧
          (t.bus.stateMarker = true → bus.stateMarker = true) ∧ t.bus.reportFifo <+: bus.reportFifo := by
    intro before es t list
    obtain ⟨cues, groups, claims, bus, eq, _, marker⟩ := withoutAll_kept before (.failed .fault) es t
    have left := withoutAll_cues before (.failed .fault) list
    have reports := withoutAll_reports_grow before (.failed .fault) es t
    rw [eq] at left reports
    obtain rfl : cues = before := left
    exact ⟨groups, claims, bus, eq, marker, reports⟩
  cases runs : headRunning s with
  | false =>
    rw [failList_still runs, listStopped_still runs]
    exact removed [] s.cues s rfl
  | true =>
    obtain ⟨e, rest, list, running⟩ := headRunning_true runs
    rw [failList_running list running, list, listStopped_running running]
    exact removed [faultEnded e] rest { s with cues := faultEnded e :: rest } rfl

/-! ### FAULT_STOP entered -/

/-- What an entry to FAULT_STOP makes of the machine beside groups and claims (R50, R123, R124, R166). -/
structure FaultStopped (s t : State) : Prop where
  control : t.control = { s.control with
    station := .faultStop
    faultPin := true
    driveEnable := s.control.driveEnable && decide (s.profile.motion ≠ .idle) }
  profile : t.profile = { s.profile with
    motion := if s.profile.motion = .idle then .idle else .stopping
    stopKind := if s.profile.motion = .idle then s.profile.stopKind else some .fault }
  port : t.port = { s.port with blanking := blankingAfterStop s }
  cues : t.cues = listStopped s.cues
  store : t.store = s.store
  tally : t.tally = s.tally
  peers : t.peers = s.peers
  faults : ∀ c, c ≠ .floorOverlap → t.faults.get c = s.faults.get c
  marker : t.bus.stateMarker = true
  reports : s.bus.reportFifo <+: t.bus.reportFifo

theorem blankingAfterStop_idle {s : State} (idle : s.profile.motion = .idle) : blankingAfterStop s = s.port.blanking := by
  rw [blankingAfterStop, if_pos (.inl idle)]

theorem blankingAfterStop_stopping {s : State} (stopping : s.profile.motion = .stopping) :
    blankingAfterStop s = s.port.blanking := by
  rw [blankingAfterStop, if_pos (.inr (by simp [rateTarget, stopping]))]

/-- The station in FAULT_STOP with its list failed and the overlap test made, before the motion is seen to. -/
theorem faultStop_listed (s : State) :
    ∃ groups claims faults bus,
      overlapAfterBy raiseFlags s (failList (setFaultStop s)) = { s with
          control := { s.control with station := .faultStop, faultPin := true }
          cues := listStopped s.cues, groups := groups, claims := claims, faults := faults, bus := bus } ∧
        (∀ c, c ≠ .floorOverlap → faults.get c = s.faults.get c) ∧ bus.stateMarker = true ∧
        s.bus.reportFifo <+: bus.reportFifo := by
  obtain ⟨groups, claims, bus, failed, marker, reports⟩ := failList_kept (setFaultStop s)
  have noted := overlapNoted_after s (failList (setFaultStop s))
  rw [failed] at noted ⊢
  obtain ⟨overlap, faults, bus', tested, others, marker', reports'⟩ := noted
  rw [tested]
  rw [setFaultStop_eq] at marker others reports ⊢
  exact ⟨groups, { claims with overlap := overlap }, faults, bus', rfl, others, marker' (marker rfl), reports.trans reports'⟩

/-- What entry to FAULT_STOP does to the motion, as one record update. -/
theorem faultMotion_eq (s : State) :
    faultMotion s = { s with
      control := { s.control with driveEnable := s.control.driveEnable && decide (s.profile.motion ≠ .idle) }
      profile := { s.profile with
        motion := if s.profile.motion = .idle then .idle else .stopping
        stopKind := if s.profile.motion = .idle then s.profile.stopKind else some .fault }
      bus := busMarked (decide (s.profile.motion = .running ∨ s.profile.motion = .held) && onBus s) s.bus
      port := { s.port with blanking := blankingAfterStop s } } := by
  cases motion : s.profile.motion with
  | idle =>
    simp only [faultMotion, motion, blankingAfterStop_idle motion]
    simp [← motion]
    simp [motion]
  | stopping =>
    simp only [faultMotion, motion, blankingAfterStop_stopping motion]
    simp [← motion]
    simp [motion]
  | running => simp [faultMotion, motion, beginStop_eq (s := s) .fault (by simp [motion])]
  | held => simp [faultMotion, motion, beginStop_eq (s := s) .fault (by simp [motion])]

theorem enterFaultStop_stopped (s : State) : FaultStopped s (enterFaultStop s) := by
  obtain ⟨groups, claims, faults, bus, listed, others, marker, reports⟩ := faultStop_listed s
  rw [enterFaultStop, listed, faultMotion_eq]
  exact ⟨rfl, rfl, rfl, rfl, rfl, rfl, rfl, others, by simp [marker], reports⟩

/-! ### A raise -/

/-- What a raise of STOP severity makes of an ACTIVE station: its flags, and FAULT_STOP entered (R164). -/
theorem raise_stopped {c : FaultClass} {s : State} (n : FaultName) (active : s.control.station = .active)
    (severe : isStop s c = true) :
    FaultStopped { s with
      faults := s.faults.set c ⟨true, (s.faults.get c).sticky⟩, bus := busAfterRaise c n s } (raise c n s) := by
  rw [raise_stop c n s active severe, raiseFlags_eq, flagsAfterRaise_eq]
  exact enterFaultStop_stopped _

/-- What a raise makes of a station that is not ACTIVE, or at REPORT severity: flags and reports only (R164). -/
theorem raise_flagged {c : FaultClass} {s : State} (n : FaultName) (only : s.control.station ≠ .active ∨ isStop s c = false) :
    raise c n s = { s with
      faults := s.faults.set c ⟨true, (s.faults.get c).sticky⟩, bus := busAfterRaise c n s } := by
  rw [raise_flags_only c n s only, raiseFlags_eq, flagsAfterRaise_eq]

/-- The first raise of an unmasked class is reported while there is room (R164, R165). -/
theorem busAfterRaise_first {c : FaultClass} {n : FaultName} {s : State} (clear : (s.faults.get c).sticky = false)
    (unmasked : (settingOf s c).masked = false) (room : s.bus.reportFifo.length < 8) :
    (busAfterRaise c n s).reportFifo = s.bus.reportFifo ++ [.fault c n] := by
  rw [busAfterRaise, if_neg (by simp [clear, unmasked])]
  exact busAfterReport_room room

theorem listStopped_cons {s : State} : (headRunning s = false → listStopped s.cues = []) ∧
    ∀ e rest, s.cues = e :: rest → e.stage = .running →
      listStopped s.cues = [{ e with ending := some (e.ending.getD (.failed .fault)) }] :=
  ⟨listStopped_still, fun _ _ list running => by rw [list, listStopped_running running]; rfl⟩

end Sys2Proof.Machine
end

section
/-! Replies that raise (R8, R126), the blanking windows' expiry (R129) and duplicate stations (R155). -/
namespace Sys2Proof.Machine

/-- The state in which a reply of the open exchange has been recorded. -/
def answeredExchange (a : Axis) (r : DriveReply) (x : Exchange) (s : State) : State :=
  { s with port := { s.port with
      lastActual := s.port.lastActual.set a r.position
      driveStatus := s.port.driveStatus.set a (driveStatusOf r.status)
      exchange := some { x with replies := x.replies.set a (some r.position) } } }

theorem replyInExchange_new {a : Axis} {r : DriveReply} {x : Exchange} {s : State} (new : x.replies.get a = none) :
    replyInExchange a r x s =
      let t := answeredExchange a r x s
      let u := if blankingRuns t then t else checkFollowing a r.position (x.paired.get a) t
      if driveStatusOf r.status = .fault then raise .driveFault (.axis a) u else u := by
  simp only [replyInExchange, new]
  rfl

theorem checkFollowing_within {a : Axis} {actual paired : Position} {s : State}
    (fine : s.control.driveEnable = false ∨ followingError actual paired ≤ ((configOf s).axes.get a).error) :
    checkFollowing a actual paired s = s := by
  rw [checkFollowing, if_neg]
  rintro ⟨enabled, beyond⟩
  rcases fine with off | within
  · simp [off] at enabled
  · omega

theorem checkFollowing_beyond {a : Axis} {actual paired : Position} {s : State} (enabled : s.control.driveEnable = true)
    (beyond : ((configOf s).axes.get a).error < followingError actual paired) :
    checkFollowing a actual paired s = raise .followingError (.axis a) s := if_pos ⟨enabled, beyond⟩

theorem exec_driveReply {s : State} {r : DriveReply} {a : Axis} {x : Exchange} (hearing : hears s)
    (exchange : s.port.exchange = some x) (good : r.check = replyCheck r) (index : r.index.toNat = a.index) :
    exec (.driveReply r) s = .next (replyInExchange a r x s) :=
  (next_hearing hearing _).trans (by rw [takeReply_exchange good index exchange])

/-- Settles O10: with no following error to raise the reply is recorded, and a FAULT status raises DRIVE_FAULT. -/
theorem replyInExchangeIsRecorded : Obligations.ReplyInExchangeIsRecorded := by
  intro s r a x hearing exchange new good index quiet
  have run := exec_driveReply hearing exchange good index
  have unraised : (if blankingRuns (answeredExchange a r x s) then answeredExchange a r x s
      else checkFollowing a r.position (x.paired.get a) (answeredExchange a r x s)) = answeredExchange a r x s := by
    rcases quiet with within | ⟨n, running⟩ | off
    · rw [checkFollowing_within (.inr (by exact within)), ite_self]
    · rw [if_pos]
      simp [blankingRuns, answeredExchange, running]
    · rw [checkFollowing_within (.inl (by exact off)), ite_self]
  rw [replyInExchange_new new] at run
  dsimp only at run
  rw [unraised] at run
  refine ⟨fun ok => ?_, fun fault => ?_⟩
  · rw [run, if_neg (by simp [ok, driveStatusOf]), answeredExchange, ok]
    rfl
  · rw [if_pos (by simp [fault, driveStatusOf])] at run
    refine ⟨_, run, ?_⟩
    have status : driveStatusOf r.status = .fault := by simp [fault, driveStatusOf]
    have flags : ∀ c, c ≠ .driveFault → (s.faults.set .driveFault ⟨true, (s.faults.get .driveFault).sticky⟩).get c =
        s.faults.get c := fun c other => by simp [other]
    have first : (s.faults.get .driveFault).sticky = false → s.bus.reportFifo.length < 8 →
        s.bus.reportFifo ++ [.fault .driveFault (.axis a)] =
          (busAfterRaise .driveFault (.axis a) (answeredExchange a r x s)).reportFifo := fun clear room =>
      (busAfterRaise_first (s := answeredExchange a r x s) clear rfl room).symm
    by_cases active : s.control.station = .active
    case pos =>
      have stop := raise_stopped (.axis a) (s := answeredExchange a r x s) (c := .driveFault) active rfl
      have port := stop.port
      refine ⟨by rw [port]; rfl, by rw [port, ← status]; rfl, by rw [port]; rfl, by rw [port]; rfl, stop.store, stop.peers,
        stop.tally, (stop.faults _ (by decide)).trans (by simp [answeredExchange]), fun c drive overlap => (stop.faults c overlap).trans (flags c drive),
        fun clear room => first clear room ▸ stop.reports, fun _ => ⟨stop.control, by rw [stop.profile]; rfl, by rw [stop.profile]; rfl,
          fun still => stop.cues.trans (listStopped_cons.1 still), fun e rest list running =>
            stop.cues.trans (listStopped_cons.2 e rest list running)⟩, fun other => absurd active other⟩
    case neg =>
      rw [raise_flagged (.axis a) (.inl (by exact active))]
      refine ⟨rfl, by rw [← status]; rfl, rfl, rfl, rfl, rfl, rfl, by simp [answeredExchange], fun c drive _ => flags c drive,
        fun clear room => first clear room ▸ ⟨[], List.append_nil _⟩, fun yes => absurd yes active,
        fun _ => ⟨rfl, rfl, rfl, rfl, rfl, flags _ (by decide)⟩⟩

/-- Settles O11: the raise of FOLLOWING_ERROR at STOP severity. -/
theorem followingErrorStopsTheMove : Obligations.FollowingErrorStopsTheMove := by
  intro s r a x hearing exchange new good index ok beyond still enabled severe
  have status : driveStatusOf r.status = .ok := by simp [ok, driveStatusOf]
  have severe : isStop (answeredExchange a r x s) .followingError = true := by
    rw [isStop, settingOf_config s (answeredExchange a r x s) rfl, severe]
    rfl
  have run : exec (.driveReply r) s = .next (raise .followingError (.axis a) (answeredExchange a r x s)) := by
    have runs : blankingRuns (answeredExchange a r x s) = false := by simp [blankingRuns, answeredExchange, still]
    rw [exec_driveReply hearing exchange good index, replyInExchange_new new, status]
    dsimp only
    rw [runs, checkFollowing_beyond (by exact enabled) (by exact beyond)]
    rfl
  refine ⟨_, run, ?_⟩
  by_cases active : s.control.station = .active
  case pos =>
    have stop := raise_stopped (.axis a) (s := answeredExchange a r x s) active severe
    have port := stop.port
    have flags : (raise .followingError (.axis a) (answeredExchange a r x s)).faults.get .followingError =
        ⟨true, (s.faults.get .followingError).sticky⟩ := (stop.faults _ (by decide)).trans (by simp [answeredExchange])
    refine ⟨by rw [flags], by rw [flags], by rw [port]; rfl, by rw [stop.profile]; rfl, by rw [stop.profile]; rfl,
      by rw [port]; rfl, by rw [port, ← status]; rfl, by rw [port]; rfl, fun _ => ⟨by rw [stop.control], by rw [stop.control],
        fun quiet => stop.cues.trans (listStopped_cons.1 quiet), fun e rest list running =>
          stop.cues.trans (listStopped_cons.2 e rest list running), fun idle => ?_, fun moves => ?_⟩, fun other => absurd active other⟩
    · have idle : (answeredExchange a r x s).profile.motion = .idle := idle
      exact ⟨by rw [stop.profile]; simp [idle], by rw [stop.control]; simp [idle]⟩
    · have moves : (answeredExchange a r x s).profile.motion ≠ .idle := moves
      have enabled : (answeredExchange a r x s).control.driveEnable = true := enabled
      exact ⟨by rw [stop.profile]; simp [moves], by rw [stop.profile]; simp [moves], by rw [stop.control]; simp [moves, enabled]⟩
  case neg =>
    rw [raise_flagged (.axis a) (.inl (by exact active))]
    exact ⟨by simp [answeredExchange], by simp [answeredExchange], rfl, rfl, rfl, rfl, by rw [← status]; rfl, rfl, fun yes => absurd yes active,
      fun _ => ⟨rfl, rfl, rfl, rfl⟩⟩

/-! ### The blanking windows' expiry (R129) -/

theorem recheckAxis_within {x : Exchange} {a : Axis} {s : State}
    (fine : s.control.driveEnable = false ∨
      ∀ v, x.replies.get a = some v → followingError v (x.paired.get a) ≤ ((configOf s).axes.get a).error) :
    recheckAxis x s a = s := by
  unfold recheckAxis
  split
  · rfl
  · rename_i v reply
    exact checkFollowing_within (fine.imp_right fun all => all v reply)

/-- Which exchange the expiry checks, and whether the servo period expiry of the same moment is still to come (log 12). -/
theorem expireBlanking_eq {x : Exchange} {s : State}
    (at_ : (s.port.blanking = some 0 ∧ s.port.closed = some x) ∨ (s.port.blanking = some 1 ∧ s.port.exchange = some x)) :
    expireBlanking s =
      if s.port.blanking = some 1 then addRestartPeriod (recheckPairs x s) else recheckPairs x s := by
  rcases at_ with ⟨count, closed⟩ | ⟨count, open_⟩
  · simp only [expireBlanking, exchangeAtExpiry, count, closed]
  · simp only [expireBlanking, exchangeAtExpiry, count, open_]

/-- An axis whose latest pair is beyond E (R126). -/
def pairBeyond (x : Exchange) (s : State) (a : Axis) : Prop :=
  ∃ v, x.replies.get a = some v ∧ ((configOf s).axes.get a).error < followingError v (x.paired.get a)

theorem recheckAxis_beyond {x : Exchange} {a : Axis} {s : State} (enabled : s.control.driveEnable = true)
    (beyond : pairBeyond x s a) : recheckAxis x s a = raise .followingError (.axis a) s := by
  obtain ⟨v, reply, beyond⟩ := beyond
  simp only [recheckAxis, reply]
  exact checkFollowing_beyond enabled beyond

theorem recheckAxis_fine {x : Exchange} {a : Axis} {s : State}
    (fine : ¬(s.control.driveEnable = true ∧ pairBeyond x s a)) : recheckAxis x s a = s := by
  refine recheckAxis_within ?_
  cases enabled : s.control.driveEnable with
  | false => exact .inl rfl
  | true => exact .inr fun v reply => Nat.not_lt.mp fun beyond => fine ⟨enabled, v, reply, beyond⟩

/-- A check of pairs that only raises flags: FOLLOWING_ERROR is set when a pair is beyond E. -/
theorem recheck_flags (x : Exchange) (l : List Axis) {s : State}
    (only : s.control.station ≠ .active ∨ isStop s .followingError = false) :
    ∃ faults bus, l.foldl (recheckAxis x) s = { s with faults := faults, bus := bus } ∧
      ((s.faults.get .followingError).sticky = true ∨ (s.control.driveEnable = true ∧ ∃ a ∈ l, pairBeyond x s a) →
        (faults.get .followingError).sticky = true) := by
  induction l generalizing s with
  | nil => exact ⟨s.faults, s.bus, rfl, fun h => h.elim id fun none => by simp at none⟩
  | cons a l ih =>
    by_cases raises : s.control.driveEnable = true ∧ pairBeyond x s a
    · have eq := raise_flagged (.axis a) only
      obtain ⟨faults, bus, rest, set⟩ := ih (s := raise .followingError (.axis a) s) (by
        rw [eq]
        exact only.imp_right fun mild => by rw [← mild, isStop, isStop]; rfl)
      refine ⟨faults, bus, ?_, fun _ => set (.inl (by rw [eq]; simp))⟩
      rw [List.foldl_cons, recheckAxis_beyond raises.1 raises.2, rest, eq]
    · obtain ⟨faults, bus, rest, set⟩ := ih only
      refine ⟨faults, bus, by rw [List.foldl_cons, recheckAxis_fine raises, rest], fun h => set (h.imp_right fun ⟨on, b, mem, far⟩ => ?_)⟩
      rcases List.mem_cons.mp mem with rfl | mem
      · exact absurd ⟨on, far⟩ raises
      · exact ⟨on, b, mem, far⟩

/-- A check of pairs at STOP severity in ACTIVE: the first pair beyond E stops the move, the others only raise flags. -/
theorem recheck_stops (x : Exchange) (l : List Axis) {s : State} (active : s.control.station = .active)
    (severe : isStop s .followingError = true) (enabled : s.control.driveEnable = true) (beyond : ∃ a ∈ l, pairBeyond x s a) :
    ∃ a v faults bus, FaultStopped { s with
        faults := s.faults.set .followingError ⟨true, (s.faults.get .followingError).sticky⟩
        bus := busAfterRaise .followingError (.axis a) s } v ∧
      l.foldl (recheckAxis x) s = { v with faults := faults, bus := bus } ∧
      (faults.get .followingError).sticky = true := by
  induction l with
  | nil => simp at beyond
  | cons a l ih =>
    by_cases far : pairBeyond x s a
    · have stop := raise_stopped (.axis a) active severe
      obtain ⟨faults, bus, rest, set⟩ := recheck_flags x l (s := raise .followingError (.axis a) s) (.inl (by simp [stop.control]))
      refine ⟨a, _, faults, bus, stop, ?_, set (.inl ?_)⟩
      · rw [List.foldl_cons, recheckAxis_beyond enabled far, rest]
      · rw [stop.faults _ (by decide)]
        simp
    · rw [List.foldl_cons, recheckAxis_fine (fun h => far h.2)]
      obtain ⟨b, mem, farther⟩ := beyond
      refine ih ⟨b, (List.mem_cons.mp mem).resolve_left ?_, farther⟩
      rintro rfl
      exact far farther

/-- Settles O18: the pairs checked with the windows stopped, at either of the two orders of log 12. -/
theorem blankingExpiryChecksTheLatestPairs : Obligations.BlankingExpiryChecksTheLatestPairs := by
  intro s x hearing at_
  have run : exec .blankingWindowExpiry s = .next (if s.port.blanking = some 1 then addRestartPeriod (recheckPairs x s)
      else recheckPairs x s) := (next_hearing hearing _).trans (by rw [expireBlanking_eq at_])
  let u : State := { s with port := { s.port with blanking := none } }
  have pairs : recheckPairs x s = Axis.all.foldl (recheckAxis x) u := rfl
  have stillNone : ∀ t : State, t.port.blanking = none →
      (if s.port.blanking = some 1 then addRestartPeriod t else t) = t := by
    intro t none
    split
    · rw [addRestartPeriod, none, Option.map_none, ← none]
    · rfl
  refine ⟨fun fine => ?_, fun ⟨enabled, a, v, reply, far⟩ => ⟨_, run, ?_⟩⟩
  · have quiet : ∀ l : List Axis, l.foldl (recheckAxis x) u = u := by
      intro l
      induction l with
      | nil => rfl
      | cons a l ih =>
        have same : recheckAxis x u a = u := recheckAxis_within (fine.imp_right fun all => all a)
        rw [List.foldl_cons, same, ih]
    rw [run, pairs, quiet, stillNone u rfl]
  · have beyond : ∃ b ∈ Axis.all, pairBeyond x u b := ⟨a, Axis.mem_all a, v, reply, far⟩
    by_cases stops : s.control.station = .active ∧ isStop u .followingError = true
    case neg =>
      have only : u.control.station ≠ .active ∨ isStop u .followingError = false := by
        rwa [Classical.not_and_iff_not_or_not, Bool.not_eq_true] at stops
      obtain ⟨faults, bus, eq, set⟩ := recheck_flags x Axis.all only
      rw [pairs, eq, stillNone _ rfl]
      refine ⟨set (.inr ⟨enabled, beyond⟩), fun active severe => absurd ⟨active, ?_⟩ stops, fun _ => ⟨rfl, rfl⟩⟩
      rw [isStop, settingOf_config s u rfl, severe]
      rfl
    case pos =>
      obtain ⟨active, severe⟩ := stops
      obtain ⟨_, w, faults, bus, stop, eq, set⟩ := recheck_stops x Axis.all (s := u) active severe enabled beyond
      rw [pairs, eq]
      have station : w.control.station = .faultStop := by rw [stop.control]
      refine ⟨?_, fun _ _ => ⟨?_, fun running turns => ?_⟩, fun other => absurd active other⟩
      · split <;> exact set
      · split <;> exact station
      · have motion : w.profile.motion = .stopping := by
          rw [stop.profile]
          exact if_neg (by simp [u, running])
        have window : w.port.blanking = freshWindow s := by
          rw [stop.port]
          refine if_neg (not_or.mpr ⟨?_, turns⟩)
          simp [u, running]
        split
        · exact ⟨motion, by simp [addRestartPeriod, window]⟩
        · exact ⟨motion, by simp [window]⟩

/-! ### Duplicate stations (R155, R181) -/

/-- Every command with a header is a frame heard. -/
theorem frame_heard {c : Instr} {h : Header} (frame : frameHeader c = some h) :
    ∃ f : State → State, ∀ s, exec c s = .next (heard h f s) := by
  cases c <;> simp only [frameHeader, Option.some.injEq, reduceCtorEq] at frame <;> subst frame <;>
    exact ⟨_, fun _ => rfl⟩

/-- Settles O21: what a duplicate-station event does in each station state. -/
theorem duplicateStationEventByState : Obligations.DuplicateStationEventByState := by
  intro s hearing
  have run : exec .duplicateStationEvent s = .next (duplicateStation s) := next_hearing hearing _
  refine ⟨fun c h frame own => ?_, fun off => ?_, fun joining => ?_, fun stopped => ?_, fun active => ?_⟩
  · obtain ⟨f, exec_eq⟩ := frame_heard frame
    rw [exec_eq, run, heard_own h f s hearing own]
  · rw [run, duplicateStation, off]
    simp only [setIdentityConflict]
    rw [if_neg (by simp [endSpent, off])]
    rfl
  · rw [run, duplicateStation, joining]
    simp only [setIdentityConflict]
    rw [if_pos (by simp [endSpent, joining])]
    rfl
  · rw [run, duplicateStation, stopped]
    dsimp only
    rw [raise_flagged .nothing (.inl (by simp [endSpent, stopped]))]
    refine ⟨_, rfl, rfl, rfl, rfl, rfl, rfl, rfl, rfl, rfl, by simp [endSpent], fun room clear => ?_⟩
    exact busAfterRaise_first (s := endSpent s) clear rfl room
  · rw [run, duplicateStation, active]
    have stop := raise_stopped .nothing (s := endSpent s) (c := .duplicateStation) active rfl
    refine ⟨_, rfl, stop.control, (stop.faults _ (by decide)).trans (by simp [endSpent]), by rw [stop.profile]; rfl,
      by rw [stop.profile]; rfl, stop.marker, by rw [stop.port]; rfl, stop.store, stop.peers,
      fun still => stop.cues.trans (listStopped_cons.1 still), fun e rest list running =>
            stop.cues.trans (listStopped_cons.2 e rest list running)⟩

end Sys2Proof.Machine
end

section
/-! The servo period expiry: missed replies, a move that advances, passes the end of leg 1, completes or stops (R5, R7, R114 to
R125). -/
namespace Sys2Proof.Machine

/-! ### Missed replies (R7, R8) -/

/-- What the axis port holds of the drives' replies. -/
def repliesHeld (s : State) := (s.port.lastActual, s.port.driveStatus, s.port.exchange)

theorem repliesHeld_kept {s t : State} (h : kept s = kept t) : repliesHeld s = repliesHeld t :=
  congrArg (fun k => (k.2.2.2.2.2.2.1.lastActual, k.2.2.2.2.2.2.1.driveStatus, k.2.2.2.2.2.2.1.exchange)) h

theorem repliesHeld_runPeriod (p : RunningPlan) (s : State) : repliesHeld (runPeriod p s) = repliesHeld s := by
  unfold runPeriod
  dsimp only
  split
  · exact (repliesHeld_kept (kept_setMotion _ _)).trans rfl
  · rfl

theorem repliesHeld_endLeg1 (s : State) : repliesHeld (endLeg1 s) = repliesHeld s :=
  repliesHeld_kept (kept_changeClaims _ _)

theorem repliesHeld_stopCompletion (s : State) : repliesHeld (stopCompletion s) = repliesHeld s := by
  have ended : repliesHeld (takeUpHead (endStoppedMove s)) = repliesHeld s :=
    repliesHeld_kept ((kept_takeUpHead _).trans (kept_endStoppedMove s))
  have restarted : ∀ t : State, repliesHeld (if s.control.restartPending then restartEffect t else t) = repliesHeld t := by
    intro t
    split <;> rfl
  refine (restarted _).trans (Eq.trans ?_ ended)
  split
  · exact repliesHeld_kept (kept_faultStopCompletion _)
  · rfl

/-- The profile generator's work leaves the replies alone. -/
theorem repliesHeld_profileWork (s : State) : repliesHeld (profileWork s) = repliesHeld s := by
  have moved : ∀ p, repliesHeld (movePeriod p (countBlanking s)) = repliesHeld s := by
    intro p
    have ran := repliesHeld_runPeriod p (countBlanking s)
    have passed : ∀ t : State, repliesHeld (if reachesLeg1End p (countBlanking s) then endLeg1 t else t) = repliesHeld t := by
      intro t
      split
      · exact repliesHeld_endLeg1 t
      · rfl
    unfold movePeriod
    dsimp only
    split
    · split
      · exact (repliesHeld_stopCompletion _).trans ((passed _).trans ran)
      · exact (passed _).trans ran
    · split
      · exact (repliesHeld_kept ((kept_takeUpHead _).trans (kept_completeMove _))).trans ((passed _).trans ran)
      · exact (passed _).trans ran
  unfold profileWork
  split
  · split
    · exact moved _
    · rfl
  · rfl

theorem raise_driveFault_sticky (n : FaultName) (s : State) : ((raise .driveFault n s).faults.get .driveFault).sticky = true := by
  by_cases active : s.control.station = .active
  · rw [(raise_stopped n (s := s) (c := .driveFault) active rfl).faults _ (by decide)]
    simp
  · rw [raise_flagged n (.inl active)]
    simp

/-- The axes whose replies are missed get status FAULT, and DRIVE_FAULT is set when there is one. -/
theorem missedReplies (x : Exchange) (l : List Axis) (s : State) :
    (l.foldl (missedReply x) s).port.lastActual = s.port.lastActual ∧
      (∀ a, (l.foldl (missedReply x) s).port.driveStatus.get a =
        if a ∈ l ∧ x.replies.get a = none then .fault else s.port.driveStatus.get a) ∧
      ((s.faults.get .driveFault).sticky = true ∨ (∃ a ∈ l, x.replies.get a = none) →
        ((l.foldl (missedReply x) s).faults.get .driveFault).sticky = true) := by
  induction l generalizing s with
  | nil => exact ⟨rfl, fun a => by simp, fun set => set.elim id fun none => by simp at none⟩
  | cons b l ih =>
    obtain ⟨actual, status, set⟩ := ih (missedReply x s b)
    cases reply : x.replies.get b with
    | some v =>
      rw [missedReply_in (by simp [reply])] at actual status set
      rw [List.foldl_cons, missedReply_in (by simp [reply])]
      refine ⟨actual, fun a => (status a).trans ?_, fun h => set (h.imp_right fun ⟨a, mem, missed⟩ => ⟨a, ?_, missed⟩)⟩
      · by_cases same : a = b
        · simp [same, reply]
        · simp [same]
      · refine (List.mem_cons.mp mem).resolve_left ?_
        rintro rfl
        simp [reply] at missed
    | none =>
      have raised : missedReply x s b = raise .driveFault (.axis b)
          { s with port := { s.port with driveStatus := s.port.driveStatus.set b .fault } } := by
        simp only [missedReply, reply]
      have held := repliesHeld_kept (kept_raise .driveFault (.axis b)
        { s with port := { s.port with driveStatus := s.port.driveStatus.set b .fault } })
      rw [← raised] at held
      obtain ⟨heldActual, heldStatus, _⟩ := by simpa only [repliesHeld, Prod.mk.injEq] using held
      rw [List.foldl_cons]
      refine ⟨actual.trans heldActual, fun a => (status a).trans ?_, fun _ => set (.inl ?_)⟩
      · rw [heldStatus]
        by_cases same : a = b
        · simp [same, reply]
        · simp [same, PerAxis.get_set_of_ne _ _ same]
      · rw [raised]
        exact raise_driveFault_sticky _ _

/-- Settles O13: the replies held reach the end of the profile generator's work, and then the exchange closes. -/
theorem missedReplyRaisesDriveFault : Obligations.MissedReplyRaisesDriveFault := by
  intro s x hearing timer exchange
  have held := repliesHeld_profileWork s
  obtain ⟨actual, status, open_⟩ := by simpa only [repliesHeld, Prod.mk.injEq] using held
  let u : State := { profileWork s with port := { (profileWork s).port with exchange := none, closed := some x } }
  have period : servoPeriod s = openExchange s.port.lastSetpoint (Axis.all.foldl (missedReply x) u) := by
    have closed : closeExchange (profileWork s) = Axis.all.foldl (missedReply x) u := by
      simp only [closeExchange, open_.trans exchange, u]
    rw [← closed]
    rfl
  obtain ⟨heldActual, heldStatus, set⟩ := missedReplies x Axis.all u
  refine ⟨_, exec_servoPeriod hearing timer, ?_⟩
  rw [period]
  refine ⟨heldActual.trans actual, fun a => (heldStatus a).trans ?_, fun ⟨a, missed⟩ => set (.inr ⟨a, Axis.mem_all a, missed⟩), rfl⟩
  simp only [Axis.mem_all, true_and]
  exact if_congr Iff.rfl rfl (congrArg (·.get a) status)

/-! ### The period of a move (R114 to R117) -/

theorem stopping_iff (s : State) : stopping s = true ↔ s.profile.motion = .stopping := by simp [stopping]

theorem runPeriod_eq (p : RunningPlan) (s : State) :
    ∃ marks, runPeriod p s = { s with
      profile := { s.profile with
        rate := nextRate s
        time := nextTime p s
        motion :=
          if nextRate s = 0 ∧ s.profile.hold = true ∧ s.profile.motion ≠ .stopping then .held else s.profile.motion }
      port := { s.port with lastSetpoint := setpointsAt p (nextTime p s) }
      bus := busMarked marks s.bus } := by
  have same : (nextRate s = 0 ∧ s.profile.hold = true ∧ stopping s = false) ↔
      (nextRate s = 0 ∧ s.profile.hold = true ∧ s.profile.motion ≠ .stopping) := by simp [stopping]
  unfold runPeriod
  dsimp only
  by_cases holds : nextRate s = 0 ∧ s.profile.hold = true ∧ s.profile.motion ≠ .stopping
  · rw [if_pos (same.mpr holds), if_pos holds, setMotion_eq]
    exact ⟨_, rfl⟩
  · rw [if_neg (mt same.mp holds), if_neg holds]
    exact ⟨false, by rw [busMarked_false]⟩

/-- Profile time after a period that meets neither the end of leg 1 nor the move's end (R117). -/
theorem nextTime_within {p : RunningPlan} {s : State}
    (leg : twoLegs p = true ∧ s.profile.leg1Passed = false → s.profile.time + nextRate s < leg1End p)
    (within : s.profile.time + nextRate s < moveEnd p) : nextTime p s = s.profile.time + nextRate s := by
  rw [nextTime, advanceTime, if_neg, if_neg (Nat.not_le.mpr within)]
  simp only [Bool.and_eq_true, Bool.not_eq_true', decide_eq_true_eq]
  exact fun ⟨two, beyond⟩ => absurd (leg two) (by omega)

theorem reachesLeg1End_within {p : RunningPlan} {s : State}
    (leg : twoLegs p = true ∧ s.profile.leg1Passed = false → nextTime p s < leg1End p) : reachesLeg1End p s = false := by
  rw [Bool.eq_false_iff]
  simp only [reachesLeg1End, ne_eq, Bool.and_eq_true, Bool.not_eq_true', decide_eq_true_eq]
  exact fun ⟨two, beyond⟩ => absurd (leg two) (by omega)

/-- A period that meets no end only runs. -/
theorem movePeriod_runs {p : RunningPlan} {s : State} (leg : reachesLeg1End p s = false)
    (goes : s.profile.motion = .stopping → nextRate s ≠ 0) (within : s.profile.motion ≠ .stopping → nextTime p s < moveEnd p) :
    movePeriod p s = runPeriod p s := by
  unfold movePeriod
  dsimp only
  rw [leg]
  by_cases stops : s.profile.motion = .stopping
  · rw [if_pos ((stopping_iff s).mpr stops), if_neg (goes stops)]
    rfl
  · rw [if_neg (mt (stopping_iff s).mp stops), if_neg (Nat.not_le.mpr (within stops))]
    rfl

/-- Settles O14: the period runs, and the exchange turns over. -/
theorem servoPeriodAdvancesTheMove : Obligations.ServoPeriodAdvancesTheMove := by
  intro s x p hearing timer exchange replies moves plan r time leg within goes
  let w := countBlanking s
  have next : nextTime p w = time := nextTime_within (s := w) leg within
  have runs : movePeriod p w = runPeriod p w :=
    movePeriod_runs (s := w) (reachesLeg1End_within (s := w) fun two => next ▸ leg two)
      (fun stops => Nat.pos_iff_ne_zero.mp (goes stops)) (fun _ => next ▸ within)
  obtain ⟨marks, eq⟩ := runPeriod_eq p w
  rw [next] at eq
  have work : profileWork s = runPeriod p w := (profileWork_moving plan moves).trans runs
  have period : servoPeriod s = nextExchange x s.port.lastSetpoint (runPeriod p w) := by
    rw [← work]
    exact servoPeriod_in (by rw [work, eq]; exact exchange) replies
  refine ⟨_, exec_servoPeriod hearing timer, ?_⟩
  rw [period, eq]
  refine ⟨rfl, rfl, plan, rfl, rfl, rfl, rfl, rfl, rfl, rfl, ?_, rfl, rfl, rfl, rfl, rfl, rfl, rfl, rfl, rfl⟩
  exact List.map_congr_left fun a _ => by simp [setpointsAt]

/-! ### The end of leg 1 (R119) -/

/-- The rectangles left once that of leg 1 has gone (R87). -/
def ownPastLeg1 (own : List OwnClaim) : List OwnClaim := own.filter fun o => !(o.claim.kind == .leg && o.leg == 1)

theorem endLeg1_eq {s : State} (none : s.peers = []) :
    endLeg1 s = { s with
      profile := { s.profile with leg1Passed := true }
      port := { s.port with blanking := freshWindow s }
      claims := { s.claims with own := ownPastLeg1 s.claims.own }
      bus := busMarked (decide (ownPastLeg1 s.claims.own ≠ s.claims.own) && onBus s) s.bus } := by
  unfold endLeg1
  dsimp only
  rw [restartBlanking_eq, changeClaims_noPeers _ (by exact none), setOwn_eq]
  rfl

/-- Settles O15: the period runs up to M1, and the end of leg 1 is met. -/
theorem endOfLegOneReleasesItsRectangle : Obligations.EndOfLegOneReleasesItsRectangle := by
  intro s x p hearing timer exchange replies running plan none two open_ before reaches
  let w := countBlanking s
  have next : nextTime p w = leg1End p := by
    have reaches : leg1End p ≤ w.profile.time + nextRate w := reaches
    have open_ : w.profile.leg1Passed = false := open_
    rw [nextTime, advanceTime, two, open_]
    by_cases beyond : leg1End p < w.profile.time + nextRate w
    · simp [beyond]
    · have exact_ : w.profile.time + nextRate w = leg1End p := by omega
      simp [exact_, Nat.not_le.mpr before]
  have reached : reachesLeg1End p w = true := by
    have open_ : w.profile.leg1Passed = false := open_
    simp [reachesLeg1End, two, open_, next]
  have still : stopping w = false := by
    have running : w.profile.motion = .running := running
    simp [stopping, running]
  have runs : movePeriod p w = endLeg1 (runPeriod p w) := by
    unfold movePeriod
    dsimp only
    rw [reached, still, next, if_neg (Nat.not_le.mpr before)]
    rfl
  obtain ⟨marks, eq⟩ := runPeriod_eq p w
  have work : profileWork s = endLeg1 (runPeriod p w) := (profileWork_moving plan (by simp [running])).trans runs
  have ended := endLeg1_eq (s := runPeriod p w) (by rw [eq]; exact none)
  have period : servoPeriod s = nextExchange x s.port.lastSetpoint (endLeg1 (runPeriod p w)) := by
    rw [← work]
    exact servoPeriod_in (by rw [work, ended, eq]; exact exchange) replies
  refine ⟨_, exec_servoPeriod hearing timer, ?_⟩
  rw [period, ended, eq, next]
  exact ⟨rfl, rfl, rfl, rfl, rfl, rfl, rfl, rfl, rfl⟩

end Sys2Proof.Machine
end

section
/-! Events that find an empty list and no move: whatever is raised, list, claims, groups and motion stay (R50, R166). -/
namespace Sys2Proof.Machine

/-- An empty list and no move. -/
def atRest (s : State) : Prop := s.cues = [] ∧ s.profile.motion = .idle

/-- What raises and overlap tests leave of a machine at rest. -/
structure RestKept (s t : State) : Prop where
  cues : t.cues = s.cues
  own : t.claims.own = s.claims.own
  profile : t.profile = s.profile
  groups : t.groups = s.groups
  lastSetpoint : t.port.lastSetpoint = s.port.lastSetpoint
  reports : s.bus.reportFifo <+: t.bus.reportFifo

theorem RestKept.refl (s : State) : RestKept s s := ⟨rfl, rfl, rfl, rfl, rfl, ⟨[], List.append_nil _⟩⟩

theorem RestKept.trans {s t u : State} (first : RestKept s t) (second : RestKept t u) : RestKept s u :=
  ⟨second.cues.trans first.cues, second.own.trans first.own, second.profile.trans first.profile,
    second.groups.trans first.groups, second.lastSetpoint.trans first.lastSetpoint, first.reports.trans second.reports⟩

theorem RestKept.rests {s t : State} (h : RestKept s t) (rest : atRest s) : atRest t :=
  ⟨h.cues.trans rest.1, by rw [h.profile]; exact rest.2⟩

/-- Entry to FAULT_STOP at rest: no entry to fail, no move to stop. -/
theorem rest_enterFaultStop {s : State} (rest : atRest s) : RestKept s (enterFaultStop s) := by
  have stop := enterFaultStop_stopped s
  obtain ⟨empty, idle⟩ := rest
  have failed : failList (setFaultStop s) = setFaultStop s := by
    have still : headRunning (setFaultStop s) = false := by simp [headRunning, setFaultStop_eq, empty]
    rw [failList_still still, setFaultStop_eq, empty]
    rfl
  obtain ⟨overlap, faults, bus, tested, _⟩ := overlapNoted_after s (setFaultStop s)
  have eq : enterFaultStop s = faultMotion (overlapAfterBy raiseFlags s (setFaultStop s)) := by rw [enterFaultStop, failed]
  refine ⟨?_, ?_, ?_, ?_, ?_, stop.reports⟩
  · rw [stop.cues, empty]
    rfl
  · rw [eq, faultMotion_eq, tested, setFaultStop_eq]
  · rw [stop.profile, if_pos idle, if_pos idle, ← idle]
  · rw [eq, faultMotion_eq, tested, setFaultStop_eq]
  · rw [stop.port]

theorem rest_raise {s : State} (rest : atRest s) (c : FaultClass) (n : FaultName) : RestKept s (raise c n s) := by
  have flags : RestKept s (raiseFlags c n s) := by
    rw [raiseFlags_eq]
    exact ⟨rfl, rfl, rfl, rfl, rfl, busAfterRaise_reports c n s⟩
  unfold raise
  dsimp only
  split
  · exact flags.trans (rest_enterFaultStop (flags.rests rest))
  · exact flags

theorem rest_overlapTest {s : State} (rest : atRest s) (n : Nat) : RestKept s (overlapTest n s) := by
  have set : ∀ l, RestKept s (setOverlap l s) := fun _ => ⟨rfl, rfl, rfl, rfl, rfl, ⟨[], List.append_nil _⟩⟩
  unfold overlapTest overlapTestBy
  split
  · exact .refl s
  · split
    · split
      · exact .refl s
      · exact (set _).trans (rest_raise ((set _).rests rest) _ _)
    · exact set _

theorem rest_foldl {α : Type} {f : State → α → State} (one : ∀ s a, atRest s → RestKept s (f s a)) (l : List α) {s : State}
    (rest : atRest s) : RestKept s (l.foldl f s) := by
  induction l generalizing s with
  | nil => exact .refl s
  | cons a l ih => exact (one s a rest).trans (ih ((one s a rest).rests rest))

theorem rest_overlapAfter {s : State} (rest : atRest s) (b : State) : RestKept s (overlapAfter b s) := by
  unfold overlapAfter overlapAfterBy
  split
  · exact .refl s
  · exact rest_foldl (fun s n rest => rest_overlapTest rest n) _ rest

theorem rest_missedReply {s : State} (rest : atRest s) (x : Exchange) (a : Axis) : RestKept s (missedReply x s a) := by
  unfold missedReply
  split
  · exact .refl s
  · have marked : RestKept s { s with port := { s.port with driveStatus := s.port.driveStatus.set a .fault } } :=
      ⟨rfl, rfl, rfl, rfl, rfl, ⟨[], List.append_nil _⟩⟩
    exact marked.trans (rest_raise (marked.rests rest) _ _)

/-- The exchange turned over at rest. -/
theorem rest_turnOver {s : State} (rest : atRest s) (before : PerAxis Position) :
    RestKept s (openExchange before (closeExchange s)) := by
  have closed : RestKept s (closeExchange s) := by
    unfold closeExchange
    split
    · exact .refl s
    · rename_i x _
      have first : RestKept s { s with port := { s.port with exchange := none, closed := some x } } :=
        ⟨rfl, rfl, rfl, rfl, rfl, ⟨[], List.append_nil _⟩⟩
      exact first.trans (rest_foldl (fun s a rest => rest_missedReply rest x a) _ (first.rests rest))
  exact closed.trans ⟨rfl, rfl, rfl, rfl, rfl, ⟨[], List.append_nil _⟩⟩

end Sys2Proof.Machine
end

section
/-! Completion and the promotion at the same event (R42, R47, R88, R120). -/
namespace Sys2Proof.Machine

/-! ### A QUEUED head read at its promotion -/

theorem obstacles_none {s : State} (none : s.peers = []) : obstacles s = [] := by rw [obstacles, none]; rfl

/-- With no obstacle the first candidate is free. -/
theorem firstFree_zero {p : Plan} {r : Route} (first : p.candidates[0]? = some r) : firstFree p [] 0 r :=
  ⟨first, by simp [routeFree], fun _ below => absurd below (Nat.not_lt_zero _)⟩

section
variable {v : State} {f : CueEntry} {more : List CueEntry} (list : v.cues = f :: more) (queued : f.stage = .queued)
include list queued

theorem takeUpHead_waits (waits : v.control.station ≠ .active ∨ writing v.store f.shot = true) : takeUpHead v = v := by
  by_cases active : v.control.station = .active
  · exact takeUpHead_stays list queued active (planAt_writing (before := []) list (waits.resolve_left fun other => other active))
  · exact takeUpHead_inactive list queued active

variable (active : v.control.station = .active) (free : writing v.store f.shot = false) (inside : f.shot ≤ 127)
include active free inside

/-- An EMPTY record fails the entry, here the last one. -/
theorem takeUpHead_fails (empty : recordOf v.store f.shot = .empty) (last : more = []) :
    (takeUpHead v).cues = [] ∧ (takeUpHead v).profile = v.profile ∧
      (takeUpHead v).claims = { v.claims with own := v.claims.own.filter fun o => o.claim.kind != .leg } ∧
      (v.bus.reportFifo.length < 8 →
        (takeUpHead v).bus.reportFifo = v.bus.reportFifo ++ [.cue f.tag (.failed .badShot)]) := by
  obtain ⟨_, reads⟩ := takeUpHead_planningMakes list queued active
  obtain ⟨⟨_, profile, _⟩, cues, claims, _, reports⟩ := (reads free inside).1 empty last
  exact ⟨cues, profile, claims, reports⟩

/-- A VALID record within limits and range: an entry that is not taken gets its first free candidate. -/
theorem takeUpHead_routes {c : ShotContent} {i : Nat} {r : Route} (valid : recordOf v.store f.shot = .valid c)
    (within : limitAxes v v.port.lastSetpoint c = []) (untaken : f.take = false)
    (short : (buildPlan (configOf v) v.port.lastSetpoint c).duration ≤ 65535)
    (route : firstFree (buildPlan (configOf v) v.port.lastSetpoint c) (obstacles v) i r) :
    (takeUpHead v).cues = stagedEntry f c (buildPlan (configOf v) v.port.lastSetpoint c) i r :: more ∧
      (takeUpHead v).profile = v.profile ∧
      (takeUpHead v).claims.own = v.claims.own ++ pendingClaims .leg ⟨f.priority, f.retry⟩ r.legs ∧
      (takeUpHead v).bus.reportFifo = v.bus.reportFifo := by
  have read := (planAt_within (before := []) list free inside valid within).trans (if_neg (Nat.not_lt.mpr short))
  rw [enterRouting_free (before := []) (p := buildPlan (configOf v) (planStarts [].length v) c) list route] at read
  have goes : ∀ plan, deferred (stagedEntry f c plan i r) v = false := fun _ => by simp [deferred, stagedEntry, untaken]
  have done := takeUpHead_settles list queued active read (.inr (.inl untaken))
  rw [goes] at done
  rw [done]
  exact ⟨rfl, rfl, rfl, busAnnounced_reportFifo _ _ _⟩

/-- With no peer known the first candidate is free. -/
theorem takeUpHead_plans {c : ShotContent} {r : Route} (none : v.peers = []) (valid : recordOf v.store f.shot = .valid c)
    (within : limitAxes v v.port.lastSetpoint c = []) (untaken : f.take = false)
    (short : (buildPlan (configOf v) v.port.lastSetpoint c).duration ≤ 65535)
    (first : (buildPlan (configOf v) v.port.lastSetpoint c).candidates[0]? = some r) :
    (takeUpHead v).cues = stagedEntry f c (buildPlan (configOf v) v.port.lastSetpoint c) 0 r :: more ∧
      (takeUpHead v).profile = v.profile ∧
      (takeUpHead v).claims.own = v.claims.own ++ pendingClaims .leg ⟨f.priority, f.retry⟩ r.legs ∧
      (takeUpHead v).bus.reportFifo = v.bus.reportFifo :=
  takeUpHead_routes list queued active free inside valid within untaken short
    (by rw [obstacles_none none]; exact firstFree_zero first)

end

/-! ### A head past QUEUED tested at its promotion -/

section
variable {v : State} {f : CueEntry} {more : List CueEntry} {c : ShotContent} (list : v.cues = f :: more)
  (copy : f.copy = some c)
include list copy

theorem takeUpHead_remains (stage : f.stage = .routing ∨ f.stage = .claiming ∨ f.stage = .claimed)
    (waits : f.take = false ∨ (f.stage ≠ .claimed ∧ (c.livePermitted = true ∨ v.tally.onAir = false))) :
    takeUpHead v = v := by
  have past : f.stage ≠ .queued := by rcases stage with st | st | st <;> simp [st]
  have goes : deferred f v = false := by
    rw [deferred_eq copy]
    rcases waits with untaken | ⟨_, live | off⟩ <;> simp [*]
  exact takeUpHead_past list past (testHead_waits list goes (waits.symm.imp And.left id))

theorem takeUpHead_defers (stage : f.stage = .routing ∨ f.stage = .claiming ∨ f.stage = .claimed) (take : f.take = true)
    (live : c.livePermitted = false) (air : v.tally.onAir = true) : takeUpHead v = deferralTold f more v := by
  have past : f.stage ≠ .queued := by rcases stage with st | st | st <;> simp [st]
  have defers : deferred f v = true := by
    rw [deferred_eq copy]
    rcases stage with st | st | st <;> simp [*]
  exact takeUpHead_past list past (testHead_deferred list defers)

variable (claimed : f.stage = .claimed) (take : f.take = true)
include claimed take

theorem takeUpHead_joins (mode : f.mode = .group) (goes : c.livePermitted = true ∨ v.tally.onAir = false) :
    takeUpHead v = { v with
      cues := { f with stage := .groupWait } :: more
      bus := { v.bus with
        readyFifo := fifoJoined ⟨f.group.getD 0, f.tag, ownDuration f, (configOf v).startDelay, false, false⟩ (readySent v)
          v.bus.readyFifo }
      groups := { v.groups with waitTimer := true } } := by
  have goes : deferred f v = false := by
    rw [deferred_eq copy]
    rcases goes with live | off <;> simp [*]
  exact takeUpHead_past list (by simp [claimed]) (testHead_group list goes claimed take mode)

theorem takeUpHead_starts {q : Plan} (plan : f.plan = some q) (mode : f.mode ≠ .group)
    (goes : c.livePermitted = true ∨ v.tally.onAir = false) (active : v.control.station = .active)
    (clear : v.control.restartPending = false) (idle : v.profile.motion = .idle) (none : v.peers = [])
    (long : 1 ≤ q.common.getD q.duration) : takeUpHead v = takeUpSecond (moveStarted f more c q v) := by
  have goes : deferred f v = false := by
    rw [deferred_eq copy]
    rcases goes with live | off <;> simp [*]
  refine takeUpHead_past list (by simp [claimed]) ?_
  rw [testHead_starts list goes claimed take mode active idle clear]
  exact startHead_long list copy plan idle (.inl none) long

end

/-! ### Completion -/

/-- Completion with any peers, before the overlap test: PARKED laid, what there is of NEXT_LEG relabelled (R88). -/
theorem completeMove_tested {s : State} {e : CueEntry} {rest : List CueEntry} (list : s.cues = e :: rest)
    (moves : s.profile.motion ≠ .idle) :
    completeMove s = overlapAfter (headEnded e rest .completed s)
      { headEnded e rest .completed s with
        claims := { s.claims with own := parkedAt s s.port.lastSetpoint :: relabelled s } } := by
  have marked : onBus (headEnded e rest .completed s) = true → (headEnded e rest .completed s).bus.stateMarker = true := fun on => by
    have on : onBus s = true := on
    simp [headEnded, on]
  rw [completeMove, endHead_endMove _ list moves]
  dsimp only
  rw [show completionClaims (headEnded e rest .completed s) = parkedAt s s.port.lastSetpoint :: relabelled s from rfl,
    setOwn_marked marked]
  rfl

/-- The period of a running move that reaches its end at this expiry. -/
theorem movePeriod_completes {p : RunningPlan} {s : State} (running : s.profile.motion = .running)
    (passed : twoLegs p = true → s.profile.leg1Passed = true) (ends : moveEnd p ≤ s.profile.time + nextRate s)
    (turns : 0 < nextRate s) :
    movePeriod p s = takeUpHead (completeMove (runPeriod p s)) ∧
      ∃ marks, runPeriod p s = { s with
        profile := { s.profile with rate := nextRate s, time := moveEnd p }
        port := { s.port with lastSetpoint := setpointsAt p (moveEnd p) }
        bus := busMarked marks s.bus } := by
  have closed : (twoLegs p && !s.profile.leg1Passed) = false := by
    cases two : twoLegs p with
    | false => rfl
    | true => simp [passed two]
  have still : stopping s = false := by simp [stopping, running]
  have next : nextTime p s = moveEnd p := by
    rw [nextTime, advanceTime, closed, still]
    simp [ends]
  refine ⟨?_, ?_⟩
  · unfold movePeriod
    dsimp only
    rw [reachesLeg1End, closed, still, next, if_pos le_rfl]
    rfl
  · obtain ⟨marks, eq⟩ := runPeriod_eq p s
    rw [next, if_neg (by omega)] at eq
    exact ⟨marks, eq⟩

/-- PARKED released leaves what was relabelled (R86, R88). -/
theorem parkedReleased (s : State) (final : PerAxis Position) :
    (parkedAt s final :: relabelled s).filter (fun o => o.claim.kind != .parked) = relabelled s := by
  rw [List.filter_cons_of_neg (by simp [parkedAt]), List.filter_eq_self]
  intro o mem
  obtain ⟨b, _, rfl⟩ := List.mem_map.mp mem
  rfl

/-- Settles O16: the period up to M, the completion, and the promotion of the second entry. -/
theorem completionEndsTheMove : Obligations.CompletionEndsTheMove := by
  intro s p e rest hearing timer running plan list passed r ends turns final done
  let w := countBlanking s
  obtain ⟨completes, marks, ran⟩ := movePeriod_completes (s := w) running passed ends turns
  have ranCues : (runPeriod p w).cues = e :: rest := by rw [ran]; exact list
  have moves : (runPeriod p w).profile.motion ≠ .idle := by
    rw [ran]
    show s.profile.motion ≠ .idle
    simp [running]
  have work : profileWork s = takeUpHead (completeMove (runPeriod p w)) :=
    (profileWork_moving plan (by simp [running])).trans completes
  have run := exec_servoPeriod hearing timer
  refine ⟨fun last => ?_, fun x f more two exchange replies none => ?_⟩
  · subst last
    have tested := completeMove_tested ranCues moves
    generalize before : headEnded e [] .completed (runPeriod p w) = b at tested
    generalize ended : ({ b with
      claims := { (runPeriod p w).claims with
        own := parkedAt (runPeriod p w) (runPeriod p w).port.lastSetpoint :: relabelled (runPeriod p w) } } : State) = v at tested
    rw [ran] at before ended
    have rest : atRest v := by
      rw [← ended, ← before]
      exact ⟨rfl, rfl⟩
    have test := rest_overlapAfter rest b
    rw [← tested] at test
    have taken : takeUpHead (completeMove (runPeriod p w)) = completeMove (runPeriod p w) :=
      takeUpHead_nil ((test.rests rest).1)
    have turned := rest_turnOver (test.rests rest) s.port.lastSetpoint
    have kept := test.trans turned
    have period : servoPeriod s = openExchange s.port.lastSetpoint (closeExchange (completeMove (runPeriod p w))) := by
      rw [← taken, ← work]
      rfl
    refine ⟨_, run, ?_⟩
    rw [period]
    obtain ⟨cues, own, profile, groups, setpoint, reports⟩ := kept
    rw [← ended, ← before] at cues own profile groups setpoint reports
    refine ⟨setpoint, by rw [profile]; rfl, by rw [profile]; rfl, by rw [profile]; rfl, cues, own, fun g group q mem same => ?_,
      fun room => ?_⟩
    · rw [groups] at mem
      have left := (List.mem_filter.mp mem).2
      simp [group, same] at left
    · have first : done = _ := (busAfterReport_room (r := .cue e.tag .completed) (b := busMarked marks s.bus) room).symm
      rw [first]
      exact reports
  · have completed : completeMove (runPeriod p w) = { headEnded e rest .completed (runPeriod p w) with
        claims := { (runPeriod p w).claims with
          own := parkedAt (runPeriod p w) (runPeriod p w).port.lastSetpoint :: relabelled (runPeriod p w) } } :=
      completeMove_eq ranCues moves (by rw [ran]; exact none)
    have period : servoPeriod s = nextExchange x s.port.lastSetpoint (profileWork s) := by
      have held := congrArg (·.2.2) (repliesHeld_profileWork s)
      exact servoPeriod_in (held.trans exchange) replies
    generalize made : completeMove (runPeriod p w) = v at completed work
    rw [ran] at completed
    have cues : v.cues = f :: more := by rw [completed]; exact two
    have own : v.claims.own = parkedAt s final :: relabelled s := by rw [completed]; rfl
    have profile : v.profile = { profileAtRest s.profile with rate := r } := by rw [completed]; rfl
    have control : v.control = s.control := by rw [completed]; rfl
    have store : v.store = s.store := by rw [completed]; rfl
    have tally : v.tally = s.tally := by rw [completed]; rfl
    have peers : v.peers = [] := by rw [completed]; exact none
    have setpoint : v.port.lastSetpoint = final := by rw [completed]; rfl
    have ready : v.bus.readyFifo = s.bus.readyFifo := by rw [completed]; simp [headEnded, w, countBlanking]
    have reports : s.bus.reportFifo.length < 8 → v.bus.reportFifo = done := fun room => by
      rw [completed]
      exact busAfterReport_room (b := busMarked marks s.bus) room
    have config : configOf v = configOf s := configOf_eq (by rw [control])
    have idle : v.profile.motion = .idle := by rw [profile]; rfl
    refine ⟨_, run, ?_⟩
    rw [period, work]
    have final' : (takeUpHead v).port.lastSetpoint = final := (kept_lastSetpoint (kept_takeUpHead v)).trans setpoint
    refine ⟨final', fun c q stage copy plan => ?_, fun queued => ⟨fun waits => ?_, fun active free inside => ?_⟩⟩
    · have onAir : v.tally.onAir = s.tally.onAir := by rw [tally]
      refine ⟨fun waits => ?_, fun take live air => ?_, fun take claimed goes => ⟨fun mode active clear last legs long => ?_,
        fun g mode group room => ?_⟩⟩
      · rw [takeUpHead_remains cues copy stage (by rw [onAir]; exact waits)]
        exact ⟨cues, own, idle, congrArg Profile.rate profile, reports⟩
      · rw [takeUpHead_defers cues copy stage take live (onAir.trans air)]
        refine ⟨rfl, idle, own, fun room => ?_⟩
        have told := (deferralTold_fields f more v).2 (by rw [reports (by omega)]; simp [done]; omega)
        exact told.trans (by rw [reports (by omega)])
      · subst last
        rw [takeUpHead_starts cues copy claimed take plan mode (by rw [onAir]; exact goes) (by rw [control]; exact active)
          (by rw [control]; exact clear) idle peers long,
          takeUpSecond_no (prePlanAllowed_short (by simp [moveStarted, moveBegun]))]
        refine ⟨rfl, ?_, ?_, ?_, fun room => ?_⟩
        · show startedProfile v v.tally.onAir c q = _
          rw [onAir, startedProfile, startedProfile, profile, config]
          rfl
        · show ownStarted q v.claims.own = _
          rw [ownStarted, if_neg legs, own]
          exact parkedReleased s final
        · show freshWindow v = _
          rw [freshWindow, freshWindow, config]
        · show (busAfterReport (.cue f.tag .started) v.bus).reportFifo = _
          rw [busAfterReport_room (by rw [reports (by omega)]; simp [done]; omega), reports (by omega)]
      · rw [takeUpHead_joins cues copy claimed take mode (by rw [onAir]; exact goes)]
        refine ⟨rfl, rfl, ?_, idle, own, reports⟩
        show fifoJoined _ (readySent v) v.bus.readyFifo = _
        rw [ready, fifoJoined_room room, group, config, ownDuration, plan]
        rfl
    · have waits : v.control.station ≠ .active ∨ writing v.store f.shot = true := by rwa [control, store]
      rw [takeUpHead_waits cues queued waits]
      exact ⟨cues, own⟩
    · have active : v.control.station = .active := by rwa [control]
      have free : writing v.store f.shot = false := by rwa [store]
      refine ⟨fun empty last => ?_, fun c route valid within untaken => ?_⟩
      · obtain ⟨left, _, _, told⟩ := takeUpHead_fails cues queued active free inside (by rw [store]; exact empty) last
        refine ⟨left, fun room => (told ?_).trans ?_⟩
        · rw [reports (by omega)]
          simp [done]
          omega
        · rw [reports (by omega)]
      · intro plan short first
        have same : ∀ l, limitAxes v l c = limitAxes s l c := fun l => by rw [limitAxes, limitAxes, config]
        obtain ⟨cues', _, own', reports'⟩ := takeUpHead_plans (c := c) (r := route) cues queued active free inside peers
          (by rw [store]; exact valid) (by rw [same, setpoint]; exact within) untaken (by rw [config, setpoint]; exact short)
          (by rw [config, setpoint]; exact first)
        rw [config, setpoint] at cues'
        rw [own] at own'
        exact ⟨cues', own', fun room => reports'.trans (reports room)⟩

end Sys2Proof.Machine
end

section
/-! What quiet runs keep: a STATE marker that is set, a settle timer that is stopped, and the rate while a RESTART waits. -/
namespace Sys2Proof.Machine

theorem update_quiet {s t : State} (h : UpdateBy false s t) :
    (s.bus.stateMarker = true → t.bus.stateMarker = true) ∧ (t.claims.settleTimer = true → s.claims.settleTimer = true) := by
  cases h
  case marker => exact ⟨fun set => by simp [setMarker_eq, set], fun on => by simpa [setMarker_eq] using on⟩
  case report => exact ⟨fun set => by simp [pushReport_eq, set], fun on => by simpa [pushReport_eq] using on⟩
  case flags c n only => exact ⟨fun set => by simp [raiseFlags_eq, busAfterRaise_stateMarker, set], fun on => by simpa using on⟩
  case stop c n active severe => exact ⟨fun _ => by simp [setFaultStop_eq], fun on => by simpa [setFaultStop_eq] using on⟩
  case claims c quiet => exact ⟨id, quiet.resolve_left (by decide)⟩
  case bus b marker ready reports cursor abandons quiet =>
    exact ⟨fun set => (quiet.resolve_left (by decide)).trans set, id⟩
  all_goals exact ⟨id, id⟩

theorem update_rate {s t : State} (h : UpdateBy false s t) (waits : s.control.restartPending = true) :
    t.control.restartPending = true ∧ t.profile.rate = s.profile.rate := by
  cases h
  case marker => exact ⟨by simpa [setMarker_eq] using waits, by simp [setMarker_eq]⟩
  case report => exact ⟨by simpa [pushReport_eq] using waits, by simp [pushReport_eq]⟩
  case flags c n only => exact ⟨by simpa using waits, by simp⟩
  case stop c n active severe => exact ⟨by simpa [setFaultStop_eq] using waits, by simp [setFaultStop_eq]⟩
  case restart quiet => exact absurd quiet (by decide)
  case profile p rate quiet => exact ⟨waits, (quiet.resolve_left (by decide)).resolve_left (by simp [waits])⟩
  all_goals exact ⟨waits, rfl⟩

theorem quiet_marker {s t : State} (h : DoesBy false s t) (set : s.bus.stateMarker = true) : t.bus.stateMarker = true := by
  induction h with
  | refl => exact set
  | tail _ last ih => exact (update_quiet last).1 ih

theorem quiet_settleTimer {s t : State} (h : DoesBy false s t) (off : s.claims.settleTimer = false) :
    t.claims.settleTimer = false := by
  induction h with
  | refl => exact off
  | tail _ last ih => exact Bool.eq_false_iff.mpr fun on => by simp [(update_quiet last).2 on] at ih

theorem quiet_rate {s t : State} (h : DoesBy false s t) (waits : s.control.restartPending = true) :
    t.control.restartPending = true ∧ t.profile.rate = s.profile.rate := by
  induction h with
  | refl => exact ⟨waits, rfl⟩
  | tail _ last ih =>
    obtain ⟨waits', rate⟩ := update_rate last ih.1
    exact ⟨waits', rate.trans ih.2⟩

end Sys2Proof.Machine
end

section
/-! The TAKE of a head: deferred, started, or completed at once (R37, R43, R45, R67). -/
namespace Sys2Proof.Machine

/-- The head taken: its take flag set. -/
def headTaken (e : CueEntry) (rest : List CueEntry) (s : State) : State := { s with cues := { e with take := true } :: rest }

theorem exec_takeHead {s : State} {h : Header} {e : CueEntry} {rest : List CueEntry} (taken : takenFromCue h s)
    (on : onBus s = true) (list : s.cues = e :: rest) :
    exec (.take h e.tag) s = .next (retestHead (headTaken e rest (endSpent s))) := by
  refine (next_taken taken _).trans (congrArg _ ?_)
  rw [takeTake_known (s := endSpent s) (before := []) on list rfl (by simp)]
  exact setTake_head (s := endSpent s) list

theorem groupsWithout_none {e : CueEntry} (none : e.group = none) (g : Groups) : groupsWithout e g = g := by
  simp [groupsWithout, none]

/-- The rate of a plan that starts and is not held back on air (R115). -/
theorem startedProfile_free {s : State} {onAir : Bool} {c : ShotContent} (free : c.livePermitted = true ∨ onAir = false) (p : Plan) :
    startedProfile s onAir c p = { s.profile with
      motion := if s.profile.hold then .held else .running
      plan := some ⟨p, chosenRoute p, p.common.getD p.duration, c.livePermitted⟩
      time := 0
      rate := if s.profile.hold then 0 else 256
      stopKind := none
      leg1Passed := false } := by
  have air : (onAir && !c.livePermitted) = false := by rcases free with live | off <;> simp [*]
  simp [startedProfile, air]

/-- Settles O26: the head's test decides, and a start is followed by the pre-plan or by the completion of a move of N 0. -/
theorem takeStartsOrDefersTheHead : Obligations.TakeStartsOrDefersTheHead := by
  intro s h e rest c p taken list copy plan
  let e' : CueEntry := { e with take := true }
  let v : State := headTaken e rest (endSpent s)
  refine ⟨fun on stage live air => ?_, fun active claimed mode free idle clear none => ?_⟩
  · have defers : deferred e' v = true := by
      rw [deferred_eq (e := e') copy]
      have air : v.tally.onAir = true := air
      rcases stage with st | st | st <;> simp [e', st, live, air]
    have same : exec (.take h e.tag) s = .next (deferralTold e' rest v) := by
      rw [exec_takeHead taken on list, retestHead_of (testHead_deferred rfl defers)]
    rw [same]
    cases told : e.deferralReported with
    | true =>
      have kept : ({ e' with deferralReported := true } : CueEntry) = e' := by simp [e', told]
      have told : e'.deferralReported = true := told
      rw [if_pos rfl, deferralTold, kept, if_pos told]
      rfl
    | false =>
      have told : e'.deferralReported = false := told
      rw [if_neg (by simp), deferralTold, if_neg (by simp [told]), pushReport_eq]
      rfl
  · intro running
    have on : onBus s = true := by simp [onBus, active]
    have goes : deferred e' v = false := by
      rw [deferred_eq (e := e') copy]
      rcases free with live | off
      · simp [live]
      · simp [show v.tally.onAir = false from off]
    have test : testHead v = startHead v := testHead_starts rfl goes claimed rfl mode active idle clear
    have run := exec_takeHead taken on list
    by_cases zero : p.common.getD p.duration = 0
    case pos =>
      have ended := startHead_zero (s := v) (e := e') (rest := rest) (c := c) rfl copy plan idle none zero
      rw [retestHead_ended (test.trans ended)] at run
      refine ⟨moveCompleted e' rest c p v, ?_, rfl, rfl, rfl, rfl, none, ?_, rfl, fun long => absurd zero (by omega),
        fun _ => ⟨rfl, rfl, rfl, ?_, fun ungrouped => ?_, rfl, fun room => ?_, fun f more two queued => ⟨_, run, ?_⟩⟩, fun last => ?_⟩
      · have on : onBus v = true := on
        exact (congrArg (_ || ·) on).trans (Bool.or_true _)
      · simp [moveCompleted, headEnded, moveStarted, moveBegun, v, headTaken, endSpent]
      · exact congrArg Profile.rate (startedProfile_free (s := v) (onAir := v.tally.onAir) free p)
      · exact groupsWithout_none (e := { e' with stage := .running }) ungrouped _
      · show (busAfterReport (.cue e.tag .completed) (busMarked _ (busAfterReport (.cue e.tag .started) v.bus))).reportFifo = _
        have first : (busAfterReport (.cue e.tag .started) v.bus).reportFifo = s.bus.reportFifo ++ [.cue e.tag .started] :=
          busAfterReport_room (by show s.bus.reportFifo.length < 8; omega)
        rw [busAfterReport_room (by rw [busMarked_reportFifo, first]; simp; omega), busMarked_reportFifo, first]
        simp
      · exact takeUpHead_planningMakes (u := moveCompleted e' rest c p v) two queued active
      · rw [run, takeUpHead_nil (s := moveCompleted e' rest c p v) last]
    case neg =>
      have begun := startHead_long (s := v) (e := e') (rest := rest) (c := c) rfl copy plan idle (.inl none) (by omega)
      rw [retestHead_of (test.trans begun)] at run
      have marker : (moveStarted e' rest c p v).bus.stateMarker = true := by
        simp [moveStarted, moveBegun, show onBus v = true from on]
      refine ⟨moveStarted e' rest c p v, marker, rfl, rfl, rfl, rfl, none, ?_, rfl, fun _ => ⟨rfl, rfl, ?_, rfl, fun room => ?_,
        fun f more two queued => ⟨_, run, quiet_marker (does_takeUpSecond _) marker, ?_⟩⟩, fun z => absurd z zero, fun last => ?_⟩
      · simp [moveStarted, moveBegun, v, headTaken, endSpent]
      · exact startedProfile_free free p
      · exact busAfterReport_room room
      · exact takeUpSecond_planningMakes (u := moveStarted e' rest c p v) (d := running) (by rw [← two]; rfl) rfl plan queued
          (by show (if s.profile.hold then MotionState.held else .running) ≠ .stopping; split <;> simp) active
      · rw [run, takeUpSecond_no (prePlanAllowed_short (by rw [last]; simp [moveStarted, moveBegun]))]

end Sys2Proof.Machine
end

section
/-! Stop completion: the stopped move's end, the promotion, the test of R169, and a RESTART that waits (R48, R89, R125, R169,
R182, R183). -/
namespace Sys2Proof.Machine

/-- A claim timer that runs on only past a QUEUED entry's promotion (R48). -/
def timerKept (f : CueEntry) (timer : Bool) : Bool := if f.stage = .queued then timer else false

theorem discardPrePlan_nil {s : State} (list : s.cues = []) : discardPrePlan s = s := by simp only [discardPrePlan, list]

/-- The pre-plan of the new head discarded (R48). -/
theorem discardPrePlan_cons {s : State} {f : CueEntry} {more : List CueEntry} (list : s.cues = f :: more) :
    discardPrePlan s = { s with
      cues := discardedEntry f :: more
      claims := { s.claims with
        settleTimer := timerKept f s.claims.settleTimer, claimWaitTimer := timerKept f s.claims.claimWaitTimer } } := by
  by_cases queued : f.stage = .queued
  · simp only [discardPrePlan, list, queued, if_true, discardedEntry, timerKept]
    rw [← list]
  · simp [discardPrePlan, list, queued, discardedEntry, timerKept, modifyCue, stopClaimTimers]

/-- The stopped move's end, no peer known: PARKED alone is claimed (R89). -/
theorem endStoppedMove_eq {s : State} {e : CueEntry} {rest : List CueEntry} {o : CueOutcome} (list : s.cues = e :: rest)
    (ending : e.ending = some o) (moves : s.profile.motion ≠ .idle) (none : s.peers = []) :
    endStoppedMove s = { discardPrePlan (headEnded e rest o s) with
      claims := { (discardPrePlan (headEnded e rest o s)).claims with own := [parkedAt s s.port.lastSetpoint] } } := by
  have outcome : headEnding s = o := by simp [headEnding, list, ending]
  have only : ∃ cues claims, discardPrePlan (headEnded e rest o s) = { headEnded e rest o s with cues := cues, claims := claims } := by
    cases rest with
    | nil => exact ⟨_, _, discardPrePlan_nil rfl⟩
    | cons f more => exact ⟨_, _, discardPrePlan_cons rfl⟩
  rw [endStoppedMove, outcome, endHead_endMove o list moves]
  dsimp only
  obtain ⟨cues, claims, eq⟩ := only
  rw [eq]
  have marked : onBus s = true → (busMarked (onBus s) (busAfterReport (.cue e.tag o) s.bus)).stateMarker = true := fun on => by
    simp [on]
  rw [setOwn_marked (by exact marked)]
  exact overlapAfter_noPeers _ none

/-- The period of a stopping move whose rate reaches 0 at this expiry. -/
theorem movePeriod_stops {p : RunningPlan} {s : State} (stops : s.profile.motion = .stopping)
    (leg : twoLegs p = true ∧ s.profile.leg1Passed = false → s.profile.time < leg1End p) (within : s.profile.time < moveEnd p)
    (zero : nextRate s = 0) :
    movePeriod p s = stopCompletion (runPeriod p s) ∧
      ∃ marks, runPeriod p s = { s with
        profile := { s.profile with rate := 0 }
        port := { s.port with lastSetpoint := setpointsAt p s.profile.time }
        bus := busMarked marks s.bus } := by
  have next : nextTime p s = s.profile.time := by
    rw [nextTime_within (by rw [zero]; exact leg) (by rw [zero]; exact within), zero]
    rfl
  refine ⟨?_, ?_⟩
  · have still : stopping s = true := (stopping_iff s).mpr stops
    unfold movePeriod
    dsimp only
    rw [reachesLeg1End_within (by rw [next]; exact leg), still, if_pos rfl, if_pos zero]
    rfl
  · obtain ⟨marks, eq⟩ := runPeriod_eq p s
    rw [next, if_neg (by simp [stops]), zero] at eq
    exact ⟨marks, eq⟩

theorem stopCompletion_plain {s : State} (clear : s.control.restartPending = false) :
    stopCompletion s =
      if s.control.station = .faultStop then faultStopCompletion (takeUpHead (endStoppedMove s))
      else takeUpHead (endStoppedMove s) := by
  simp only [stopCompletion, clear, Bool.false_eq_true, if_false]

theorem stopFlagSet_congr {s t : State} (config : t.control.config = s.control.config) (faults : t.faults = s.faults) :
    stopFlagSet t = stopFlagSet s := by
  rw [stopFlagSet, stopFlagSet, faults]
  exact List.any_congr rfl fun c => by rw [isStop, isStop, settingOf_config s t config]

/-- What the test of R169 leaves alone: everything but station control's outputs and the STATE marker. -/
theorem faultStopCompletion_kept (s : State) :
    ∃ control marks, faultStopCompletion s = { s with control := control, bus := busMarked marks s.bus } := by
  unfold faultStopCompletion
  split
  · exact ⟨_, false, by rw [busMarked_false]⟩
  · exact ⟨_, true, by rw [returnToActive_eq, busMarked, Bool.or_true]⟩

@[simp] theorem discardedEntry_stage (f : CueEntry) : (discardedEntry f).stage = .queued := by
  unfold discardedEntry
  split
  · assumption
  · rfl

theorem discardedEntry_kept (f : CueEntry) : (discardedEntry f).shot = f.shot ∧ (discardedEntry f).tag = f.tag ∧
    (discardedEntry f).take = f.take ∧ (discardedEntry f).priority = f.priority := by
  unfold discardedEntry
  split <;> exact ⟨rfl, rfl, rfl, rfl⟩

/-- A RESTART that waits takes effect at stop completion, with the rate the stop has reached (R182, log 15). -/
theorem stopCompletion_restarts {s : State} (waits : s.control.restartPending = true) :
    ∃ y, stopCompletion s = restartEffect y ∧ kept y = kept s ∧ y.profile.rate = s.profile.rate := by
  let z := takeUpHead (endStoppedMove s)
  have same : kept z = kept s := (kept_takeUpHead _).trans (kept_endStoppedMove s)
  have rate : z.profile.rate = s.profile.rate := (quiet_rate ((does_endStoppedMove s).trans (does_takeUpHead _)) waits).2
  by_cases stopped : s.control.station = .faultStop
  · refine ⟨faultStopCompletion z, ?_, (kept_faultStopCompletion z).trans same, ?_⟩
    · simp only [stopCompletion, waits, if_true, stopped, z]
    · obtain ⟨_, _, eq⟩ := faultStopCompletion_kept z
      rw [eq]
      exact rate
  · refine ⟨z, ?_, same, rate⟩
    simp only [stopCompletion, waits, if_true, stopped, if_false, z]

theorem kept_control {s t : State} (h : kept s = kept t) :
    { s.control with station := .offline, driveEnable := false, faultPin := false } =
      { t.control with station := .offline, driveEnable := false, faultPin := false } := congrArg (·.2.2.2.2.2.1) h

theorem kept_port {s t : State} (h : kept s = kept t) :
    ({ s.port with blanking := none } : AxisPort) = { t.port with blanking := none } := congrArg (·.2.2.2.2.2.2.1) h

/-- Settles O17: the period down to rate 0, the stopped move's end, and what follows it. -/
theorem stopCompletionEndsTheMove : Obligations.StopCompletionEndsTheMove := by
  intro s x p hearing timer exchange replies stops plan leg within zero final
  let w := countBlanking s
  obtain ⟨completes, marks, ran⟩ := movePeriod_stops (s := w) stops leg within zero
  have work : profileWork s = stopCompletion (runPeriod p w) := (profileWork_moving plan (by simp [stops])).trans completes
  have run := exec_servoPeriod hearing timer
  have period : servoPeriod s = nextExchange x s.port.lastSetpoint (stopCompletion (runPeriod p w)) := by
    rw [← work]
    exact servoPeriod_in ((congrArg (·.2.2) (repliesHeld_profileWork s)).trans exchange) replies
  refine ⟨fun e rest o list ending none clear => ?_, fun waits => ?_⟩
  · intro ended
    have uCues : (runPeriod p w).cues = e :: rest := by rw [ran]; exact list
    have moves : (runPeriod p w).profile.motion ≠ .idle := by
      rw [ran]
      show s.profile.motion ≠ .idle
      simp [stops]
    have eq := endStoppedMove_eq uCues ending moves (by rw [ran]; exact none)
    have plain := stopCompletion_plain (s := runPeriod p w) (by rw [ran]; exact clear)
    have station : (runPeriod p w).control.station = s.control.station := by rw [ran]; rfl
    generalize made : endStoppedMove (runPeriod p w) = v at eq plain
    have settles : ∃ control marks, stopCompletion (runPeriod p w) =
        { takeUpHead v with control := control, bus := busMarked marks (takeUpHead v).bus } := by
      rw [plain]
      split
      · exact faultStopCompletion_kept _
      · exact ⟨_, false, by rw [busMarked_false]⟩
    have setpoint : v.port.lastSetpoint = final := by
      rw [← made, kept_lastSetpoint (kept_endStoppedMove _), ran]
      rfl
    have final' : (takeUpHead v).port.lastSetpoint = final := (kept_lastSetpoint (kept_takeUpHead v)).trans setpoint
    rw [ran] at eq
    have room : s.bus.reportFifo.length < 8 →
        (busMarked (onBus s) (busAfterReport (.cue e.tag o) (busMarked marks s.bus))).reportFifo = ended := fun room =>
      busAfterReport_room (b := busMarked marks s.bus) room
    refine ⟨_, run, ?_, fun last => ?_, fun f more two => ?_⟩
    · obtain ⟨_, _, settled⟩ := settles
      rw [period, settled]
      exact final'
    · subst last
      rw [discardPrePlan_nil rfl] at eq
      have taken : takeUpHead v = v := takeUpHead_nil (by rw [eq]; rfl)
      have control : v.control = s.control := by rw [eq]; rfl
      have flags : stopFlagSet v = stopFlagSet s := stopFlagSet_congr (by rw [control]) (by rw [eq]; rfl)
      rw [taken] at plain settles
      obtain ⟨_, _, settled⟩ := settles
      have fields := settled
      rw [eq] at fields
      rw [period]
      refine ⟨?_, ?_, ?_, ?_, ?_, ?_, fun fits => ?_, ?_, fun stopped => ⟨fun set => ?_, fun clear => ?_⟩, fun other => ?_⟩
      · exact congrArg (fun t : State => t.profile.motion) fields
      · exact congrArg (fun t : State => t.profile.plan) fields
      · exact congrArg (fun t : State => t.profile.stopKind) fields
      · exact congrArg (fun t : State => t.profile.rate) fields
      · exact congrArg (fun t : State => t.cues) fields
      · exact congrArg (fun t : State => t.claims.own) fields
      · have told := congrArg (fun t : State => t.bus.reportFifo) fields
        exact told.trans (room fits)
      · have kept := congrArg (fun t : State => t.faults) fields
        exact kept
      · rw [plain, station, if_pos stopped, faultStopCompletion, flags, set, if_pos rfl]
        exact ⟨(congrArg Control.station control).trans stopped, rfl⟩
      · rw [plain, station, if_pos stopped, faultStopCompletion, flags, clear, returnToActive_eq]
        exact ⟨rfl, rfl, rfl⟩
      · rw [plain, station, if_neg other]
        exact control
    · subst two
      rw [discardPrePlan_cons (f := f) (more := more) rfl] at eq
      have cues : v.cues = discardedEntry f :: more := by rw [eq]
      have own : v.claims.own = [parkedAt s final] := by rw [eq]; rfl
      have idle : v.profile.motion = .idle := by rw [eq]; rfl
      have rate : v.profile.rate = 0 := by rw [eq]; rfl
      have reports : s.bus.reportFifo.length < 8 → v.bus.reportFifo = ended := fun fits => by rw [eq]; exact room fits
      have control : v.control = s.control := by rw [eq]; rfl
      have store : v.store = s.store := by rw [eq]; rfl
      have config : configOf v = configOf s := configOf_eq (by rw [control])
      obtain ⟨shot, tag, take, priority⟩ := discardedEntry_kept f
      obtain ⟨_, marks', settled⟩ := settles
      rw [period, settled]
      refine ⟨fun past => ?_, fun waits => ?_, fun active free inside => ⟨fun empty last => ?_, fun c route valid within untaken => ?_⟩⟩
      · have off : v.claims.settleTimer = false := by rw [eq]; exact if_neg past
        have settle := quiet_settleTimer (does_takeUpHead v) off
        exact settle
      · rw [takeUpHead_waits cues (discardedEntry_stage f) (by rw [control, store, shot]; exact waits)]
        refine ⟨cues, own, idle, rate, fun past => ?_, reports⟩
        rw [eq]
        exact if_neg past
      · obtain ⟨left, profile, claims, told⟩ := takeUpHead_fails cues (discardedEntry_stage f) (by rw [control]; exact active)
          (by rw [store, shot]; exact free) (by rw [shot]; exact inside) (by rw [store, shot]; exact empty) last
        refine ⟨left, ?_, (congrArg Profile.motion profile).trans idle, fun fits => (told ?_).trans ?_⟩
        · show (takeUpHead v).claims.own = _
          rw [claims, own]
          rfl
        · rw [reports (by omega)]
          simp [ended]
          omega
        · rw [reports (by omega), tag]
      · intro plan short first
        have same : ∀ l, limitAxes v l c = limitAxes s l c := fun l => by rw [limitAxes, limitAxes, config]
        obtain ⟨cues', profile, own', reports'⟩ := takeUpHead_plans (c := c) (r := route) cues (discardedEntry_stage f)
          (by rw [control]; exact active) (by rw [store, shot]; exact free) (by rw [shot]; exact inside)
          (by rw [eq]; exact none) (by rw [store, shot]; exact valid) (by rw [same, setpoint]; exact within)
          (take.trans untaken) (by rw [config, setpoint]; exact short) (by rw [config, setpoint]; exact first)
        rw [config, setpoint] at cues'
        rw [own, priority] at own'
        exact ⟨cues', (congrArg Profile.motion profile).trans idle, own', fun fits => reports'.trans (reports fits)⟩
  · obtain ⟨y, restarts, same, rate⟩ := stopCompletion_restarts (s := runPeriod p w) (by rw [ran]; exact waits)
    refine ⟨_, run, ?_⟩
    rw [period, restarts]
    rw [ran] at same rate
    have control := kept_control same
    have port := kept_port same
    have store := kept_store same
    have tally := kept_tally same
    have restarted : profileAfterRestart y.profile = { State.reset.profile with rate := 0 } := by
      rw [profileAfterRestart, rate]
      rfl
    refine ⟨kept_lastSetpoint same, rfl, ?_, ?_, rfl, rfl, rfl, rfl, rfl, restarted, rfl, store, tally⟩
    · exact (congrArg AxisPort.servoTimer port).trans timer
    · exact congrArg (fun c : Control => { c with
        station := .joining, joinTimer := true, restartPending := false, driveEnable := true, faultPin := false }) control

end Sys2Proof.Machine
end

section
/-! The join timer's expiry (R91, R180) and a write's completion (R24, R28). -/
namespace Sys2Proof.Machine

/-! ### Entering ACTIVE -/

/-- The station entered ACTIVE, before the test of R168: PARKED laid, the STATE marker set, the heartbeat timer running. -/
def activated (s : State) : State :=
  { s with
    control := { s.control with station := .active, joinTimer := false }
    bus := { s.bus with stateMarker := true, heartbeat := true }
    claims := { s.claims with own := [parkedAt s s.port.lastSetpoint] } }

theorem enterActive_eq {s : State} (none : s.peers = []) :
    enterActive s = if stopFlagSet s then enterFaultStop (activated s) else activated s := by
  have marked : setMarker { s with control := { s.control with station := .active, joinTimer := false } } = { s with
      control := { s.control with station := .active, joinTimer := false }
      bus := { s.bus with stateMarker := true } } := by
    rw [setMarker_eq]
    simp [onBus]
  have flags : stopFlagSet (activated s) = stopFlagSet s := stopFlagSet_congr rfl rfl
  rw [enterActive, marked]
  dsimp only
  rw [setOwn_marked (by simp), overlapAll_noPeers (by exact none)]
  have station : (activated s).control.station = .active := rfl
  have test : ((activated s).control.station = .active ∧ stopFlagSet (activated s) = true) ↔ stopFlagSet s = true := by
    rw [flags]
    exact ⟨And.right, fun set => ⟨rfl, set⟩⟩
  exact if_congr test rfl rfl

/-- Entry to FAULT_STOP with an empty list, no move and no peer. -/
theorem enterFaultStop_empty {s : State} (empty : s.cues = []) (idle : s.profile.motion = .idle) (none : s.peers = []) :
    enterFaultStop s = { s with
      control := { s.control with station := .faultStop, faultPin := true, driveEnable := false }
      bus := { s.bus with stateMarker := true } } := by
  have failed : failList (setFaultStop s) = setFaultStop s := by
    have still : headRunning (setFaultStop s) = false := by simp [headRunning, setFaultStop_eq, empty]
    rw [failList_still still, setFaultStop_eq, empty]
    rfl
  rw [enterFaultStop, failed]
  dsimp only
  rw [overlapAfterBy_noPeers s (by rw [setFaultStop_eq]; exact none), setFaultStop_eq, faultMotion]
  simp only [idle]

theorem stopFlag_exists (s : State) :
    stopFlagSet s = true ↔ ∃ c, (settingOf s c).severity = .stop ∧ (s.faults.get c).sticky = true := by
  rw [stopFlagSet_iff]
  simp [isStop]

/-- Settles O44. -/
theorem joinTimerEntersActive : Obligations.JoinTimerEntersActive := by
  intro s hearing
  refine ⟨fun stopped => ?_, fun runs joining none empty idle => ?_⟩
  · exact (next_hearing hearing _).trans (by rw [if_neg (by simp [stopped])])
  · intro fault parked bus claims
    have run : exec .joinTimerExpiry s = .next (if stopFlagSet s then enterFaultStop (activated s) else activated s) :=
      (next_hearing hearing _).trans (by rw [if_pos runs, enterActive_eq none])
    refine ⟨fun clear => ?_, fun set => ?_⟩
    · rw [run, if_neg (mt (stopFlag_exists s).mp clear)]
      rfl
    · rw [run, if_pos ((stopFlag_exists s).mpr set), enterFaultStop_empty (by exact empty) (by exact idle) (by exact none)]
      rfl

/-! ### A write's completion -/

/-- The store once a write has ended. -/
def storeWritten (verified : Bool) (w : WriteInFlight) (s : State) : ShotStore :=
  { areas := writeArea w.shot (if verified then storedForm w.content else areaAfterFailedVerify s.free) s.store.areas
    corrupt := if verified then eraseNumber w.shot s.store.corrupt else insertNumber w.shot s.store.corrupt
    write := none }

/-- The outcome of a write (R24). -/
def writeOutcome (verified : Bool) : StoreOutcome := if verified then .written else .writeFailed

/-- The state once a write has ended, before a waiting entry reads its record afresh. -/
def written (verified : Bool) (w : WriteInFlight) (s : State) : State :=
  { s with
    store := storeWritten verified w s
    free := if verified then s.free else s.free + 1
    bus := if onBus s then busAfterReport (.store (BitVec.ofNat 8 w.shot) (writeOutcome verified)) s.bus else s.bus }

theorem completeWrite_eq {s : State} {w : WriteInFlight} (write : s.store.write = some w) (verified : Bool) :
    completeWrite verified s = readAfresh w.shot (written verified w s) := by
  have report : ∀ (o : StoreOutcome) (t : State), reportWrite w.shot o t =
      { t with bus := if onBus t then busAfterReport (.store (BitVec.ofNat 8 w.shot) o) t.bus else t.bus } := by
    intro o t
    unfold reportWrite reportStore
    rw [pushReport_eq]
    split <;> rfl
  simp only [completeWrite, write]
  cases verified <;> simp only [writeVerified, writeFailed, report] <;> rfl

theorem mem_insertNumber {n m : Nat} {l : List Nat} : m ∈ insertNumber n l ↔ m = n ∨ m ∈ l := by
  induction l with
  | nil => simp [insertNumber]
  | cons k ks ih =>
    unfold insertNumber
    split
    · simp
    · split
      · rename_i same
        simp [same]
      · simp only [List.mem_cons, ih]
        tauto

theorem mem_eraseNumber {n m : Nat} {l : List Nat} : m ∈ eraseNumber n l ↔ m ≠ n ∧ m ∈ l := by
  simp [eraseNumber, and_comm]

theorem readAfresh_none {shot : Nat} {s : State} (none : ∀ e ∈ s.cues, e.stage = .queued → e.shot ≠ shot) :
    readAfresh shot s = s := by
  have waits : ∀ e ∈ s.cues, waitsFor shot e = false := fun e mem => by
    simp only [waitsFor, Bool.and_eq_false_iff, beq_eq_false_iff_ne]
    exact not_and_or.mp fun ⟨queued, same⟩ => none e mem queued same
  unfold readAfresh
  split
  · rfl
  · rename_i e rest list
    rw [waits e (by simp [list])]
    split
    · contradiction
    · split
      · rfl
      · rename_i f more
        rw [waits f (by simp [list])]
        rfl

theorem readAfresh_head {shot : Nat} {s : State} {e : CueEntry} {rest : List CueEntry} (list : s.cues = e :: rest)
    (queued : e.stage = .queued) (same : e.shot = shot) : readAfresh shot s = takeUpHead s := by
  have waits : waitsFor shot e = true := by simp [waitsFor, queued, same]
  simp only [readAfresh, list, waits, if_true]

/-- Settles O34. -/
theorem writeCompletionEndsTheWrite : Obligations.WriteCompletionEndsTheWrite := by
  intro s verified hearing
  have run : exec (.writeCompletion verified) s = .next (completeWrite verified s) := next_hearing hearing _
  refine ⟨fun idle => ?_, fun w write => ?_⟩
  · rw [run]
    simp only [completeWrite, idle]
  intro outcome
  rw [completeWrite_eq write] at run
  let v := written verified w s
  have areas : ∀ n, areaOf v.store.areas n = if n = w.shot then
      (if verified then storedForm w.content else areaAfterFailedVerify s.free) else areaOf s.store.areas n :=
    fun n => areaOf_writeArea _ _ _ _
  have keeps : (readAfresh w.shot v).store = v.store := by
    unfold readAfresh
    split
    · rfl
    · split
      · exact kept_store (kept_takeUpHead v)
      · split
        · rfl
        · split
          · exact kept_store (kept_takeUpSecond v)
          · rfl
  refine ⟨_, run, ?_⟩
  rw [show written verified w s = v from rfl, keeps]
  refine ⟨rfl, fun ok => ⟨?_, ?_⟩, fun bad => ⟨?_, ?_⟩, fun n other => ⟨?_, ?_⟩, fun none => ?_, fun e rest list queued same inside => ?_⟩
  · rw [areas, if_pos rfl, if_pos ok]
  · show w.shot ∉ if verified then _ else _
    rw [if_pos ok, mem_eraseNumber]
    exact fun ⟨other, _⟩ => other rfl
  · have marked : v.store.corrupt.contains w.shot = true := by
      show (if verified then _ else insertNumber w.shot s.store.corrupt).contains w.shot = true
      rw [if_neg (by simp [bad]), List.contains_iff_mem, mem_insertNumber]
      exact .inl rfl
    rw [recordOf, if_pos marked]
  · show w.shot ∈ if verified then _ else _
    rw [if_neg (by simp [bad]), mem_insertNumber]
    exact .inl rfl
  · rw [areas, if_neg other]
  · show n ∈ (if verified then _ else _) ↔ _
    split
    · rw [mem_eraseNumber]
      exact and_iff_right other
    · rw [mem_insertNumber]
      exact or_iff_right other
  · rw [readAfresh_none (by exact none)]
    refine ⟨?_, rfl, rfl, rfl, rfl, rfl, rfl, rfl, rfl, rfl⟩
    rw [pushReport_eq]
    rfl
  · rw [readAfresh_head (by exact list) queued same]
    intro read reports
    have stored : recordOf v.store w.shot = read := by
      cases verified with
      | true =>
        have unmarked : v.store.corrupt.contains w.shot = false := by
          rw [Bool.eq_false_iff, ne_eq, List.contains_iff_mem]
          exact fun mem => (mem_eraseNumber.mp mem).1 rfl
        rw [recordOf, unmarked, areas, if_pos rfl]
        rfl
      | false =>
        have marked : v.store.corrupt.contains w.shot = true := by
          rw [List.contains_iff_mem]
          exact mem_insertNumber.mpr (.inl rfl)
        rw [recordOf, if_pos marked]
        rfl
    have cues : v.cues = e :: rest := list
    refine ⟨fun other => ?_, fun active empty last => ?_, fun c i r active valid within untaken => ?_⟩
    · rw [takeUpHead_inactive cues queued other]
      rfl
    · have on : onBus s = true := by simp [onBus, active]
      obtain ⟨left, _, _, told⟩ := takeUpHead_fails cues queued active rfl (same ▸ inside) (same ▸ stored.trans empty) last
      have bus : s.bus.reportFifo.length < 8 → v.bus.reportFifo = reports := fun room => by
        show (if onBus s then _ else s.bus).reportFifo = _
        rw [if_pos on, busAfterReport_room room]
        rfl
      refine ⟨left, fun room => (told ?_).trans (by rw [bus (by omega)])⟩
      rw [bus (by omega)]
      simp [reports]
      omega
    · intro plan short route
      have on : onBus s = true := by simp [onBus, active]
      obtain ⟨cues', _, own, told⟩ := takeUpHead_routes cues queued active rfl (same ▸ inside) (same ▸ stored.trans valid)
        within untaken short route
      refine ⟨cues', own, fun room => told.trans ?_⟩
      show (if onBus s then _ else s.bus).reportFifo = _
      rw [if_pos on, busAfterReport_room room]
      rfl

end Sys2Proof.Machine
end

section
/-! Peers forgotten and lost, STATE frames heard, and the claims they make lose (R72, R76, R79, R84, R85, R156 to R159). -/
namespace Sys2Proof.Machine

/-! ### The peer table -/

theorem find_insertPeer (e : PeerEntry) (l : List PeerEntry) (n : Nat) :
    (insertPeer e l).find? (fun p => p.number == n) =
      if e.number = n then some e else l.find? fun p => p.number == n := by
  induction l with
  | nil => by_cases same : e.number = n <;> simp [insertPeer, same]
  | cons q qs ih =>
    unfold insertPeer
    split
    · by_cases same : e.number = n <;> simp [same]
    · split
      · rename_i equal
        by_cases same : e.number = n
        · simp [same]
        · have other : ¬q.number = n := fun h => same (equal.trans h)
          simp [same, other]
      · rename_i different
        by_cases here : q.number = n
        · have other : ¬e.number = n := fun h => different (h.trans here.symm)
          simp [here, other]
        · simp [here, ih]

theorem peerOf_insertPeer (e : PeerEntry) (s : State) (n : Nat) :
    peerOf n { s with peers := insertPeer e s.peers } = if n = e.number then some e else peerOf n s :=
  (find_insertPeer e s.peers n).trans (if_congr eq_comm rfl rfl)

theorem peerOf_markLost_self {s : State} {n : Nat} {p : PeerEntry} (known : peerOf n s = some p) :
    peerOf n { s with peers := markLost n s.peers } = some { p with status := .lost } := by
  have number : p.number = n := by simpa using List.find?_some known
  have keeps : ((fun q : PeerEntry => q.number == n) ∘
      fun q => if q.number = n then { q with status := .lost } else q) = fun q => q.number == n := by
    funext q
    by_cases same : q.number = n <;> simp [same]
  simp only [peerOf, markLost, List.find?_map, keeps]
  rw [peerOf] at known
  simp [known, number]

theorem peerOf_markLost_ne {s : State} {n m : Nat} (other : m ≠ n) :
    peerOf m { s with peers := markLost n s.peers } = peerOf m s := by
  have keeps : ((fun q : PeerEntry => q.number == m) ∘
      fun q => if q.number = n then { q with status := .lost } else q) = fun q => q.number == m := by
    funext q
    by_cases same : q.number = n <;> simp [same]
  simp only [peerOf, markLost, List.find?_map, keeps]
  cases found : s.peers.find? (fun q => q.number == m) with
  | none => rfl
  | some p =>
    have number : p.number = m := by simpa using List.find?_some found
    simp [number, other]

/-! ### What a route test may change -/

/-- What testing routes may change: plans' choices and stages, PENDING rectangles and the bus interface (R75, R76). -/
structure RoutesTested (s t : State) : Prop where
  rest : t = { s with cues := t.cues, claims := { s.claims with own := t.claims.own }, bus := t.bus }
  footprints : ∀ k, planFootprint k t = planFootprint k s
  held : heldClaims t = heldClaims s

theorem RoutesTested.refl (s : State) : RoutesTested s s := ⟨rfl, fun _ => rfl, rfl⟩

theorem RoutesTested.trans {s t u : State} (first : RoutesTested s t) (second : RoutesTested t u) : RoutesTested s u := by
  refine ⟨?_, fun k => (second.footprints k).trans (first.footprints k), second.held.trans first.held⟩
  have later := second.rest
  rw [first.rest] at later
  exact later

theorem held_pendingClaims (kind : ClaimKind) (rank : Rank) (legs : List Leg) :
    (pendingClaims kind rank legs).filter isHeld = [] := by
  rw [List.filter_eq_nil_iff]
  intro o member
  obtain ⟨⟨l, i⟩, _, rfl⟩ := List.mem_map.mp member
  simp [isHeld]

/-- An entry at a place of the list. -/
theorem exists_place {α : Type} {l : List α} {k : Nat} {e : α} (found : l[k]? = some e) :
    ∃ before after, l = before ++ e :: after ∧ before.length = k := by
  obtain ⟨inside, rfl⟩ := List.getElem?_eq_some_iff.mp found
  exact ⟨l.take k, l.drop (k + 1), by simp, by simp [inside.le]⟩

theorem routesTested_routeTest (k : Nat) (s : State) : RoutesTested s (routeTest k s) := by
  by_cases settled : ∀ e, s.cues[k]? = some e → e.stage ≠ .routing
  · rw [routeTest_settled settled]
    exact .refl s
  push Not at settled
  obtain ⟨e, found, routing⟩ := settled
  obtain ⟨before, after, list, rfl⟩ := exists_place found
  cases plan : e.plan with
  | none =>
    have same : routeTest before.length s = s := by
      unfold routeTest
      simp only [found, plan]
      split
      · contradiction
      · rfl
    rw [same]
    exact .refl s
  | some p =>
    cases choice : p.candidates.findIdx? (routeFree p (obstacles s)) with
    | none =>
      rw [routeTest_blocked list routing plan ((allBlocked_iff p _).mp choice)]
      exact .refl s
    | some i =>
      obtain ⟨r, free⟩ := (firstFree_iff p _ i).mp choice
      rw [routeTest_free list routing plan free]
      refine ⟨rfl, fun m => ?_, ?_⟩
      · simp only [planFootprint, list]
        by_cases here : m = before.length
        · subst here
          rw [getElem?_place, getElem?_place]
          simp [routedEntry, plan]
        · rw [List.getElem?_append, List.getElem?_append]
          split
          · rfl
          · rw [List.getElem?_cons, List.getElem?_cons, if_neg (by omega), if_neg (by omega)]
      · simp [heldClaims, claimsAnnounced, List.filter_append, held_pendingClaims]

theorem routesTested_retestRoutes (s : State) : RoutesTested s (retestRoutes s) :=
  (routesTested_routeTest 0 s).trans (routesTested_routeTest 1 _)

theorem RoutesTested.peerOverlaps {s t : State} (h : RoutesTested s t) (p : PeerEntry) :
    peerOverlaps p t = peerOverlaps p s := by
  have exempt : ∀ o, exemptFor o t = exemptFor o s := fun o => by
    unfold exemptFor
    cases o.claim.kind with
    | parked => rfl
    | leg => exact h.footprints 0
    | nextLeg => exact h.footprints 1
  simp only [Machine.peerOverlaps, h.held, exempt]

/-! ### The retest of an only entry in ROUTING (R76) -/

theorem retestRoutes_blocked {s : State} {e : CueEntry} {p : Plan} (list : s.cues = [e]) (routing : e.stage = .routing)
    (plan : e.plan = some p) (blocked : allBlocked p (obstacles s)) : retestRoutes s = s := by
  have first := routeTest_blocked (before := []) list routing plan blocked
  rw [List.length_nil] at first
  rw [retestRoutes, first, routeTest_settled (by simp [list])]

theorem retestRoutes_free {s : State} {e : CueEntry} {p : Plan} {i : Nat} {r : Route} (list : s.cues = [e])
    (routing : e.stage = .routing) (plan : e.plan = some p) (free : firstFree p (obstacles s) i r) :
    retestRoutes s = { s with
      cues := [routedEntry e p i r]
      claims := claimsAnnounced 0 e r.legs s.claims
      bus := busAnnounced r.legs (onBus s) s.bus } := by
  have first := routeTest_free (before := []) list routing plan free
  simp only [List.length_nil, List.nil_append] at first
  rw [retestRoutes, first]
  exact routeTest_settled (by simp)

/-- What the retest makes of the list and the own claim set when its one entry is in ROUTING. -/
theorem retestRoutes_only {s : State} {e : CueEntry} {p : Plan} (list : s.cues = [e]) (routing : e.stage = .routing)
    (plan : e.plan = some p) :
    (allBlocked p (obstacles s) → (retestRoutes s).cues = [e] ∧ (retestRoutes s).claims.own = s.claims.own) ∧
      ∀ i r, firstFree p (obstacles s) i r →
        (retestRoutes s).cues = [routedEntry e p i r] ∧
          (retestRoutes s).claims.own = s.claims.own ++ pendingClaims .leg ⟨e.priority, e.retry⟩ r.legs := by
  refine ⟨fun blocked => ?_, fun i r free => ?_⟩
  · rw [retestRoutes_blocked list routing plan blocked]
    exact ⟨list, rfl⟩
  · rw [retestRoutes_free list routing plan free]
    exact ⟨rfl, rfl⟩

theorem RoutesTested.peers {s t : State} (h : RoutesTested s t) : t.peers = s.peers := by rw [h.rest]

theorem RoutesTested.obstacles {s t : State} (h : RoutesTested s t) : obstacles t = obstacles s := by
  simp only [Machine.obstacles, h.peers]

/-! ### FORGET_PEER and peer age (R158, R159) -/

theorem peerOf_isSome {s : State} {n : Nat} : (peerOf n s).isSome = true ↔ ∃ p ∈ s.peers, p.number = n := by
  simp [peerOf, List.find?_isSome]

theorem bne_filter_eq (l : List Nat) (n : Nat) : eraseNumber n l = l.filter fun m => decide (m ≠ n) := by
  simp only [eraseNumber, bne, beq_eq_decide, decide_not]

/-- The state with a peer out of the table and out of the overlap set. -/
def peerForgotten (n : Nat) (s : State) : State :=
  { s with
    peers := s.peers.filter fun p => decide (p.number ≠ n)
    claims := { s.claims with overlap := s.claims.overlap.filter fun m => decide (m ≠ n) } }

theorem forgetPeer_known {s : State} {n : Nat} (known : ∃ p ∈ s.peers, p.number = n) :
    forgetPeer n s = retestRoutes (peerForgotten n s) := by
  rw [forgetPeer, if_pos (peerOf_isSome.mpr known), bne_filter_eq, peerForgotten]
  simp only [bne, beq_eq_decide, decide_not, setOverlap]

theorem losePeer_eq {s : State} {n : Nat} (only : isStop s .peerLost = false) :
    losePeer n s = retestRoutes { s with
      peers := markLost n s.peers
      faults := s.faults.set .peerLost ⟨true, (s.faults.get .peerLost).sticky⟩
      bus := busAfterRaise .peerLost (.peer n) { s with peers := markLost n s.peers } } := by
  exact congrArg retestRoutes (raise_flagged (s := { s with peers := markLost n s.peers }) _ (.inr only))

theorem isStop_of_report {s : State} {c : FaultClass} (report : (settingOf s c).severity = .report) :
    isStop s c = false := by
  simp [isStop, report]

/-- Settles O37: FORGET_PEER and the age timer leave a state whose routes are then tested. -/
theorem peerForgottenOrLost : Obligations.PeerForgottenOrLost := by
  intro s hearing settled retested
  refine ⟨fun h number taken => ⟨fun known => ?_, fun unknown => ?_⟩, fun n => ⟨fun lost => ?_, fun p known live report => ?_⟩⟩
  · have effect : exec (.forgetPeer h number) s = .next (retestRoutes (peerForgotten number.toNat (endSpent s))) := by
      rw [← forgetPeer_known (s := endSpent s) known]
      exact next_taken taken _
    generalize start : peerForgotten number.toNat (endSpent s) = u at effect
    have cues : u.cues = s.cues := by rw [← start]; rfl
    have own : u.claims.own = s.claims.own := by rw [← start]; rfl
    have tested := routesTested_retestRoutes u
    refine ⟨fun still => ?_, _, effect, fun e p list routing plan => ?_, ?_, ?_, ?_⟩
    · rw [effect, retestRoutes_settled (by rw [cues]; exact still), ← start]
      rfl
    · rw [tested.obstacles, ← own]
      exact retestRoutes_only (cues.trans list) routing plan
    · rw [tested.peers, ← start]
      rfl
    · rw [tested.rest, ← start]
      rfl
    · rw [tested.rest, ← start]
      rfl
  · have none : (peerOf number.toNat (endSpent s)).isSome ≠ true := fun some => by
      obtain ⟨p, mem, same⟩ := peerOf_isSome.mp some
      exact unknown p mem same
    have effect : exec (.forgetPeer h number) s = .next (forgetPeer number.toNat (endSpent s)) := next_taken taken _
    rw [effect, forgetPeer, if_neg none]
  · have dead : peerLive n s = false := by
      unfold peerLive
      split
      · rename_i q found
        simp [lost q found]
      · rfl
    have effect : exec (.peerAgeExpiry n) s = .next (if peerLive n s then losePeer n s else s) := next_hearing hearing _
    rw [effect, dead]
    rfl
  · have alive : peerLive n s = true := by simp [peerLive, known, live]
    have effect : exec (.peerAgeExpiry n) s = .next (if peerLive n s then losePeer n s else s) := next_hearing hearing _
    rw [alive, if_pos rfl, losePeer_eq (isStop_of_report report)] at effect
    generalize start : ({ s with
      peers := markLost n s.peers
      faults := s.faults.set .peerLost ⟨true, (s.faults.get .peerLost).sticky⟩
      bus := busAfterRaise .peerLost (.peer n) { s with peers := markLost n s.peers } } : State) = u at effect
    have cues : u.cues = s.cues := by rw [← start]
    have claims : u.claims = s.claims := by rw [← start]
    have tested := routesTested_retestRoutes u
    have peers : ∀ m, peerOf m (retestRoutes u) = peerOf m { s with peers := markLost n s.peers } := fun m => by
      rw [peerOf, peerOf, tested.peers, ← start]
    refine ⟨_, effect, ?_, fun e q list routing plan => ?_, fun m other => ?_, ?_, fun still => ?_, ?_⟩
    · rw [peers, peerOf_markLost_self known]
    · rw [tested.obstacles, ← claims]
      exact retestRoutes_only (cues.trans list) routing plan
    · rw [peers, peerOf_markLost_ne other]
    · rw [tested.rest, ← start]
      simp [PerClass.get_set]
    · rw [retestRoutes_settled (by rw [cues]; exact still)]
      exact ⟨claims, cues⟩
    · rw [tested.rest, ← start]
      exact ⟨rfl, rfl, rfl, rfl, rfl, rfl⟩

/-! ### The overlap test cell by cell (R84) -/

/-- A peer entry overlaps: one of its HELD rectangles shares with a HELD own rectangle a cell that the exempt footprint does
not hold. -/
def OverlapsOutside (claims : List Claim) (s : State) : Prop :=
  ∃ c ∈ claims, c.state = .held ∧ ∃ o ∈ s.claims.own, o.claim.state = .held ∧
    ∃ x y, c.rect.holds x y ∧ o.claim.rect.holds x y ∧
      ∀ e q, (o.claim.kind = .leg ∧ s.cues[0]? = some e) ∨ (o.claim.kind = .nextLeg ∧ s.cues[1]? = some e) →
        e.plan = some q → ¬q.startFootprint.holds x y

theorem planFootprint_iff {k : Nat} {s : State} {f : Rect} :
    planFootprint k s = some f ↔ ∃ e q, s.cues[k]? = some e ∧ e.plan = some q ∧ q.startFootprint = f := by
  simp [planFootprint, Option.bind_eq_some_iff]

theorem exemptFor_iff {o : OwnClaim} {s : State} {f : Rect} :
    exemptFor o s = some f ↔ ∃ e q,
      ((o.claim.kind = .leg ∧ s.cues[0]? = some e) ∨ (o.claim.kind = .nextLeg ∧ s.cues[1]? = some e)) ∧
        e.plan = some q ∧ q.startFootprint = f := by
  unfold exemptFor
  cases o.claim.kind <;> simp [planFootprint_iff]

theorem peerOverlaps_iff {p : PeerEntry} {s : State} : peerOverlaps p s = true ↔ OverlapsOutside p.claims s := by
  have meets : ∀ (o : OwnClaim) (c : Claim), meetsOutside o.claim.rect c.rect (exemptFor o s) = true ↔
      ∃ x y, c.rect.holds x y ∧ o.claim.rect.holds x y ∧
        ∀ e q, (o.claim.kind = .leg ∧ s.cues[0]? = some e) ∨ (o.claim.kind = .nextLeg ∧ s.cues[1]? = some e) →
          e.plan = some q → ¬q.startFootprint.holds x y := fun o c => by
    rw [meetsOutside_iff]
    refine exists_congr fun x => exists_congr fun y => ?_
    rw [and_left_comm]
    refine and_congr_right fun _ => and_congr_right fun _ => ⟨fun out e q place plan => ?_, fun out f exempt => ?_⟩
    · exact out _ (exemptFor_iff.mpr ⟨e, q, place, plan, rfl⟩)
    · obtain ⟨e, q, place, plan, rfl⟩ := exemptFor_iff.mp exempt
      exact out e q place plan
  simp only [peerOverlaps, heldClaims, List.any_eq_true, Bool.and_eq_true, beq_iff_eq, List.mem_filter, isHeld, meets,
    OverlapsOutside, and_assoc]

/-- What the overlap test of one known peer does while FLOOR_OVERLAP has REPORT severity (R84). -/
structure OverlapTested (n : Nat) (overlaps : Prop) (s t : State) : Prop where
  rest : t = { s with claims := { s.claims with overlap := t.claims.overlap }, faults := t.faults, bus := t.bus }
  set : ∀ m, m ∈ t.claims.overlap ↔ (m = n ∧ overlaps) ∨ (m ≠ n ∧ m ∈ s.claims.overlap)
  flag : (t.faults.get .floorOverlap).sticky = true ↔
    (s.faults.get .floorOverlap).sticky = true ∨ (overlaps ∧ n ∉ s.claims.overlap)
  others : ∀ c, c ≠ .floorOverlap → t.faults.get c = s.faults.get c

theorem overlapTest_known {s : State} {n : Nat} {p : PeerEntry} (known : peerOf n s = some p)
    (report : (settingOf s .floorOverlap).severity = .report) :
    OverlapTested n (OverlapsOutside p.claims s) s (overlapTest n s) := by
  rw [← peerOverlaps_iff]
  have form : overlapTest n s =
      if peerOverlaps p s then
        if s.claims.overlap.contains n then s
        else raise .floorOverlap (.peer n) (setOverlap (insertNumber n s.claims.overlap) s)
      else setOverlap (eraseNumber n s.claims.overlap) s := by
    simp only [overlapTest, overlapTestBy, known]
  rw [form]
  by_cases overlaps : peerOverlaps p s = true
  · rw [if_pos overlaps]
    by_cases before : n ∈ s.claims.overlap
    · rw [if_pos (by simpa using before)]
      refine ⟨rfl, fun m => ?_, by simp [before], fun c _ => rfl⟩
      by_cases same : m = n
      · simp [same, before, overlaps]
      · simp [same]
    · rw [if_neg (by simpa using before)]
      have raised := raise_flagged (s := setOverlap (insertNumber n s.claims.overlap) s) (.peer n)
        (.inr (isStop_of_report (c := .floorOverlap) report))
      rw [raised]
      refine ⟨rfl, fun m => ?_, ?_, fun c other => ?_⟩
      · have member : m ∈ insertNumber n s.claims.overlap ↔ m = n ∨ m ∈ s.claims.overlap := mem_insertNumber
        refine member.trans ?_
        by_cases same : m = n <;> simp [same, overlaps]
      · simp [PerClass.get_set, overlaps, before]
      · simp [PerClass.get_set, other, setOverlap]
  · rw [if_neg overlaps]
    refine ⟨rfl, fun m => ?_, by simp [overlaps, setOverlap], fun c _ => rfl⟩
    have member : m ∈ eraseNumber n s.claims.overlap ↔ m ≠ n ∧ m ∈ s.claims.overlap := mem_eraseNumber
    refine member.trans ?_
    simp [overlaps]

/-! ### The CLAIMING entry against a heard frame (R79, R80) -/

theorem beats_pending_false {own r : Rank} {ownNumber number : Nat} {c : Claim} (pending : c.state = .pending r)
    (lesser : r.priority < own.priority ∨ (r.priority = own.priority ∧
      (r.retry < own.retry ∨ (r.retry = own.retry ∧ ownNumber ≤ number)))) :
    beats own ownNumber c number = false := by
  simp only [beats, pending, decide_eq_false_iff_not]
  omega

theorem testClaiming_keeps {s : State} {claims : List Claim} {number : Nat}
    (keeps : ∀ e ∈ s.cues, e.stage = .claiming → losesTo e claims number s = false) :
    testClaiming claims number s = s := by
  unfold testClaiming
  split
  · rfl
  · rename_i k found
    split
    · rfl
    · rename_i e here
      obtain ⟨inside, claiming, _⟩ := List.findIdx?_eq_some_iff_getElem.mp found
      obtain ⟨_, rfl⟩ := List.getElem?_eq_some_iff.mp here
      rw [keeps _ (List.getElem_mem inside) (by simpa using claiming)]
      rfl

/-- The state in which the only entry has lost its claim, before its route is tested again (R80). -/
def claimLost (e : CueEntry) (p : Plan) (s : State) : State :=
  { s with
    cues := [{ e with retry := min 15 (e.retry + 1), plan := some { p with chosen := none }, stage := .routing }]
    claims := { s.claims with own := s.claims.own.filter (fun o => o.claim.kind != .leg), settleTimer := false }
    bus := busMarked (onBus s) s.bus }

theorem loseClaim_only {s : State} {e : CueEntry} {p : Plan} (list : s.cues = [e]) (plan : e.plan = some p) :
    loseClaim 0 s = routeTest 0 (claimLost e p s) := by
  have marks (b : Bool) : busMarked (onBus s) (busMarked (b && onBus s) s.bus) = busMarked (onBus s) s.bus := by
    cases b <;> cases onBus s <;> simp [busMarked]
  rw [loseClaim, setOwn_eq, setMarker_eq]
  simp only [modifyCue, list, List.modify_zero_cons, plan, Option.map_some]
  refine congrArg (routeTest 0) ?_
  rw [claimLost, ← marks (decide (s.claims.own.filter (fun o => !ownedAt 0 o) ≠ s.claims.own))]
  rfl

theorem testClaiming_loses {s : State} {claims : List Claim} {number : Nat} {e : CueEntry} {p : Plan}
    (list : s.cues = [e]) (claiming : e.stage = .claiming) (plan : e.plan = some p)
    (loses : losesTo e claims number s = true) :
    testClaiming claims number s = routeTest 0 (claimLost e p s) := by
  have found : claimingIndex s = some 0 := cueIndex_at (before := []) list (by simp [claiming]) (by simp)
  have here : s.cues[0]? = some e := by simp [list]
  simp only [testClaiming, found, here, loses, if_true]
  exact loseClaim_only list plan

/-! ### A STATE frame taken (R157) -/

/-- The state in which a peer's entry has been created or replaced. -/
def peerHeard (number : Nat) (claims : List Claim) (s : State) : State :=
  { s with peers := insertPeer ⟨number, .live, claims⟩ s.peers }

theorem peerOf_peerHeard (number : Nat) (claims : List Claim) (s : State) (n : Nat) :
    peerOf n (peerHeard number claims s) = if n = number then some ⟨number, .live, claims⟩ else peerOf n s :=
  peerOf_insertPeer ⟨number, .live, claims⟩ s n

theorem exec_stateFrame {s : State} {h : Header} {p : StatePayload} (hearing : hears s) (other : fromOther h s)
    (source : isPedestal (sourceOf h) = true) (own : isPedestal s.control.number = true) :
    exec (.stateFrame h p) s = .next (takeState (sourceOf h) (payloadClaims p) (endSpent s)) := by
  have effect := next_heard hearing other
    (fun s => if isPedestal (sourceOf h) && isPedestal s.control.number then takeState (sourceOf h) (payloadClaims p) s else s)
  have taken : (isPedestal (sourceOf h) && isPedestal (endSpent s).control.number) = true := by
    rw [source]
    exact own
  exact effect.trans (congrArg Host.Outcome.next (if_pos taken))

/-- A STATE frame that makes no entry lose: the peer's entry replaced, routes tested, the overlap tested. -/
theorem takeState_keeps {s : State} {number : Nat} {claims : List Claim}
    (keeps : ∀ e ∈ s.cues, e.stage = .claiming → losesTo e claims number s = false) :
    takeState number claims s = overlapTest number (retestRoutes (peerHeard number claims s)) := by
  have same := testClaiming_keeps (s := peerHeard number claims s) keeps
  exact congrArg (fun u => overlapTest number (retestRoutes u)) same

theorem losesTo_false {s : State} {e : CueEntry} {claims : List Claim} {number : Nat}
    (lesser : ∀ q, e.plan = some q → ∀ l ∈ (chosenRoute q).legs, ∀ c ∈ claims,
      meetsOutside l.rect c.rect (some q.startFootprint) = true →
        ∃ r : Rank, c.state = .pending r ∧
          (r.priority < e.priority ∨ (r.priority = e.priority ∧
            (r.retry < e.retry ∨ (r.retry = e.retry ∧ s.control.number ≤ number))))) :
    losesTo e claims number s = false := by
  unfold losesTo
  split
  · rfl
  · rename_i q plan
    rw [List.any_eq_false]
    intro l leg
    rw [Bool.not_eq_true, List.any_eq_false]
    intro c member
    rw [Bool.not_eq_true, Bool.and_eq_false_imp]
    intro conflicts
    obtain ⟨r, pending, less⟩ := lesser q plan l leg c member conflicts
    exact beats_pending_false pending less

/-- Settles O39: the peer's entry is replaced, routes are tested again, and the overlap test is made cell by cell. -/
theorem stateFrameReplacesThePeerEntry : Obligations.StateFrameReplacesThePeerEntry := by
  intro s h p hearing other source own lesser report entry overlaps
  have keeps : ∀ e ∈ (endSpent s).cues, e.stage = .claiming →
      losesTo e (payloadClaims p) (sourceOf h) (endSpent s) = false := fun e member claiming =>
    losesTo_false (lesser e member claiming)
  have effect := exec_stateFrame (p := p) hearing other source own
  rw [takeState_keeps keeps] at effect
  generalize start : peerHeard (sourceOf h) (payloadClaims p) (endSpent s) = u at effect
  have peersOf : ∀ n, peerOf n u = if n = sourceOf h then some entry else peerOf n s := fun n => by
    rw [← start]
    exact peerOf_peerHeard (sourceOf h) (payloadClaims p) (endSpent s) n
  have cues : u.cues = s.cues := by rw [← start]; rfl
  have claims : u.claims = s.claims := by rw [← start]; rfl
  have faults : u.faults = s.faults := by rw [← start]; rfl
  have rest : u.control = s.control ∧ u.profile = s.profile ∧ u.port = s.port ∧ u.store = s.store ∧ u.groups = s.groups ∧
      u.tally = s.tally := by
    rw [← start]
    exact ⟨rfl, rfl, rfl, rfl, rfl, rfl⟩
  have routes := routesTested_retestRoutes u
  generalize retested : retestRoutes u = v at effect routes
  have known : peerOf (sourceOf h) v = some entry := by
    rw [peerOf, routes.peers]
    exact (peersOf (sourceOf h)).trans (if_pos rfl)
  have config : v.control = u.control := by rw [routes.rest]
  have cells : OverlapsOutside entry.claims v ↔ overlaps := by
    rw [← peerOverlaps_iff, routes.peerOverlaps, peerOverlaps_iff]
    simp only [OverlapsOutside, cues, claims]
    rfl
  have severity : (settingOf v .floorOverlap).severity = .report := by
    rw [settingOf_config s v (by rw [config, rest.1])]
    exact report
  have tested := overlapTest_known known severity
  rw [cells] at tested
  have overlapBefore : v.claims.overlap = s.claims.overlap := by rw [routes.rest, claims]
  have faultsBefore : v.faults = s.faults := by rw [routes.rest, faults]
  refine ⟨_, effect, fun n => ?_, ?_, ?_, ?_, fun settled => ?_, fun e q list routing plan => ?_, ?_⟩
  · rw [← peersOf n, peerOf, peerOf, ← routes.peers, tested.rest]
  · rw [← overlapBefore]
    exact tested.set
  · rw [← overlapBefore, ← faultsBefore]
    exact tested.flag
  · rw [← faultsBefore]
    exact tested.others
  · have still : v = u := by
      rw [← retested]
      exact retestRoutes_settled (by rw [cues]; exact settled)
    have own : u.claims.own = s.claims.own := by rw [claims]
    rw [tested.rest, still]
    exact ⟨own, cues⟩
  · rw [tested.rest]
    have retest := retestRoutes_only (cues.trans list) routing plan
    rw [retested, ← routes.obstacles, claims] at retest
    exact retest
  · rw [tested.rest, routes.rest, claims]
    exact ⟨rfl, rfl, rest⟩

/-- Settles O41: the entry loses, and its only candidate is blocked by the rectangle that made it lose. -/
theorem claimingEntryYieldsToGreaterRank : Obligations.ClaimingEntryYieldsToGreaterRank := by
  intro s h q e p r l c hearing other source own report list claiming plan candidate chosen leg member conflicts greater
  have effect := exec_stateFrame (p := q) hearing other source own
  have route : chosenRoute p = r := by simp [chosenRoute, chosen, candidate]
  have beaten : beats ⟨e.priority, e.retry⟩ s.control.number c (sourceOf h) = true :=
    greater.elim (fun held => by simp [beats, held]) id
  have loses : losesTo e (payloadClaims q) (sourceOf h) s = true := by
    simp only [losesTo, plan, route, List.any_eq_true, Bool.and_eq_true]
    exact ⟨l, leg, c, member, conflicts, beaten⟩
  generalize start : peerHeard (sourceOf h) (payloadClaims q) (endSpent s) = u
  have cues : u.cues = [e] := by
    rw [← start]
    exact list
  have control : u.control = s.control := by rw [← start]; rfl
  have known : peerOf (sourceOf h) u = some ⟨sourceOf h, .live, payloadClaims q⟩ := by
    rw [← start, peerOf_peerHeard, if_pos rfl]
  have obstacle : c.rect ∈ obstacles u :=
    List.mem_flatMap.mpr ⟨_, List.mem_of_find?_eq_some known, List.mem_map_of_mem member⟩
  have blocked : allBlocked { p with chosen := none } (obstacles u) := by
    intro x candidates
    have only : x = r := by simpa [candidate] using candidates
    subst only
    have conflict : ∃ l ∈ x.legs, ∃ o ∈ obstacles u, legConflicts p.startFootprint o l = true :=
      ⟨l, leg, c.rect, obstacle, conflicts⟩
    simpa [routeFree] using conflict
  have lost : routeTest 0 (claimLost e p u) = claimLost e p u :=
    routeTest_blocked (before := []) (s := claimLost e p u) rfl rfl rfl blocked
  have still : retestRoutes (claimLost e p u) = claimLost e p u :=
    retestRoutes_blocked (s := claimLost e p u) rfl rfl rfl blocked
  have losesHere : losesTo e (payloadClaims q) (sourceOf h) u = true := by
    simpa only [losesTo, control] using loses
  have tests := (testClaiming_loses cues claiming plan losesHere).trans lost
  have taken : takeState (sourceOf h) (payloadClaims q) (endSpent s) = overlapTest (sourceOf h) (claimLost e p u) := by
    rw [← still, ← tests, ← start]
    rfl
  have severity : (settingOf (claimLost e p u) .floorOverlap).severity = .report := by
    rw [settingOf_config s (claimLost e p u) (by rw [← control]; rfl)]
    exact report
  have tested := overlapTest_known (s := claimLost e p u) known severity
  refine ⟨_, effect.trans (congrArg _ taken), ?_⟩
  have peer : peerOf (sourceOf h) (overlapTest (sourceOf h) (claimLost e p u)) =
      some ⟨sourceOf h, .live, payloadClaims q⟩ := by
    rw [tested.rest]
    exact known
  refine ⟨?_, ?_, ?_, ?_, peer, ?_⟩ <;> rw [tested.rest, ← start]
  exacts [rfl, rfl, rfl, rfl, ⟨rfl, rfl, rfl, rfl, rfl, rfl⟩]

end Sys2Proof.Machine
end

section
/-! The on-air view: TALLY and the tally age timer (R133 to R135). -/
namespace Sys2Proof.Machine

/-- The state whose on-air view has changed, before the head is tested again (R134). -/
def viewChanged (view : Bool) (s : State) : State :=
  retarget s (setMarker { s with tally := { s.tally with onAir := view } })

/-- The state with the view set and the blanking windows as given. -/
def viewSet (view : Bool) (blanking : Option Nat) (s : State) : State :=
  { s with
    tally := { s.tally with onAir := view }
    bus := busMarked (onBus s) s.bus
    port := { s.port with blanking := blanking } }

theorem retarget_blanking (s t : State) :
    ∃ b, retarget s t = { t with port := { t.port with blanking := b } } := by
  unfold retarget
  split
  · exact ⟨_, rfl⟩
  · exact ⟨t.port.blanking, rfl⟩

theorem viewChanged_eq (view : Bool) (s : State) : ∃ b, viewChanged view s = viewSet view b s := by
  obtain ⟨b, form⟩ := retarget_blanking s (setMarker { s with tally := { s.tally with onAir := view } })
  refine ⟨b, ?_⟩
  rw [viewChanged, form, setMarker_eq]
  rfl

/-- A head that runs, or no head at all, is not affected by a test of the head. -/
theorem testHead_still {s : State} (still : s.cues = [] ∨ headRunning s = true) : testHead s = (s, false) := by
  rcases still with empty | running
  · exact testHead_nil empty
  · obtain ⟨e, rest, list⟩ : ∃ e rest, s.cues = e :: rest := by
      cases list : s.cues with
      | nil => simp [headRunning, list] at running
      | cons e rest => exact ⟨e, rest, rfl⟩
    have runs : e.stage = .running := by simpa [headRunning, list] using running
    exact testHead_waits list (by simp [deferred, runs]) (.inl (by simp [runs]))

theorem setView_same {view : Bool} {s : State} (same : s.tally.onAir = view) : setView view s = s := by
  rw [setView, if_pos same]

theorem setView_changes {view : Bool} {s : State} (changes : s.tally.onAir ≠ view) :
    ∃ b, setView view s = retestHead (viewSet view b s) := by
  obtain ⟨b, form⟩ := viewChanged_eq view s
  refine ⟨b, ?_⟩
  rw [setView, if_neg changes, ← form]
  rfl

/-- The tally heard and current (R133). -/
def tallyHeard (s : State) : State := { s with tally := { s.tally with status := .current, timer := true } }

theorem exec_tally {s : State} {h : Header} {program : BitVec 16} (hearing : hears s) (other : fromOther h s)
    (source : sourceOf h = 31) (pedestal : isPedestal s.control.number = true) :
    exec (.tally h program) s =
      .next (setView (program.getLsbD (s.control.number - 1)) (tallyHeard (endSpent s))) := by
  have view : viewOf program (endSpent s) = program.getLsbD (s.control.number - 1) := by
    have pedestal : isPedestal (endSpent s).control.number = true := pedestal
    rw [viewOf, if_pos pedestal, inPedestalSet, pedestal]
    rfl
  have effect := next_heard hearing other (fun s => if sourceOf h = tallyStation then takeTally program s else s)
  refine effect.trans (congrArg _ ?_)
  rw [if_pos (show sourceOf h = tallyStation from source), takeTally, view]
  rfl

theorem exec_tallyAgeExpiry {s : State} (hearing : hears s) :
    exec .tallyAgeExpiry s = .next (if s.tally.timer then loseTally s else s) := next_hearing hearing _

/-- A loss of the tally with no head to start or defer, at REPORT severity (R135). -/
theorem loseTally_still {s : State} (still : s.cues = [] ∨ headRunning s = true)
    (report : (settingOf s .tallyLost).severity = .report) :
    ∃ b bus, loseTally s = { s with
      tally := ⟨true, .lost, false⟩
      port := { s.port with blanking := b }
      bus := bus
      faults := s.faults.set .tallyLost ⟨true, (s.faults.get .tallyLost).sticky⟩ } := by
  have view : ∃ b bus, setView true { s with tally := { s.tally with status := .lost, timer := false } } =
      { s with tally := ⟨true, .lost, false⟩, port := { s.port with blanking := b }, bus := bus } := by
    by_cases same : s.tally.onAir = true
    · rw [setView_same (s := { s with tally := { s.tally with status := .lost, timer := false } }) same]
      refine ⟨s.port.blanking, s.bus, ?_⟩
      simp only [same]
    · obtain ⟨b, changed⟩ :=
        setView_changes (s := { s with tally := { s.tally with status := .lost, timer := false } }) same
      have test := testHead_still
        (s := viewSet true b { s with tally := { s.tally with status := .lost, timer := false } }) still
      rw [changed, retestHead_of test]
      exact ⟨b, _, rfl⟩
  obtain ⟨b, bus, view⟩ := view
  have raised := raise_flagged
    (s := { s with tally := ⟨true, .lost, false⟩, port := { s.port with blanking := b }, bus := bus }) .nothing
    (.inr (isStop_of_report (c := .tallyLost) report))
  rw [loseTally, view, raised]
  exact ⟨b, _, rfl⟩

section
variable {s : State} {view : Bool} {b : Option Nat}

/-- The rate target of a running move of a shot that is not live-permitted follows the view (R115). -/
theorem rateTarget_viewSet {run : RunningPlan} (running : s.profile.motion = .running) (free : s.profile.hold = false)
    (plan : s.profile.plan = some run) (guarded : run.livePermitted = false) :
    rateTarget (viewSet view b s) = if view then (configOf s).liveRate else 256 := by
  simp [rateTarget, viewSet, running, free, runsNotLive, plan, guarded, configOf]

variable {e : CueEntry} {rest : List CueEntry} {c : ShotContent} {p : Plan} (list : s.cues = e :: rest)
include list

/-- A head that is not taken, or that is not CLAIMED and not on air, waits at a change of the view. -/
theorem viewSet_waits (waits : e.take = false ∨ (e.stage ≠ .claimed ∧ view = false)) :
    retestHead (viewSet view b s) = viewSet view b s := by
  have goes : deferred e (viewSet view b s) = false := by
    rcases waits with untaken | ⟨_, off⟩
    · simp [deferred, untaken]
    · simp [deferred, viewSet, off]
  exact retestHead_of (testHead_waits (s := viewSet view b s) list goes (waits.symm.imp And.left id))

/-- A taken head of a shot that is not live-permitted is deferred when the view turns on air (R45). -/
theorem viewSet_defers (copy : e.copy = some c) (stage : e.stage = .routing ∨ e.stage = .claiming ∨ e.stage = .claimed)
    (taken : e.take = true) (guarded : c.livePermitted = false) (on : view = true) :
    retestHead (viewSet view b s) = deferralTold e rest (viewSet view b s) := by
  have defers : deferred e (viewSet view b s) = true := by
    rw [deferred_planned copy rfl stage]
    simp [taken, guarded, viewSet, on]
  exact retestHead_of (testHead_deferred (s := viewSet view b s) list defers)

/-- A taken CLAIMED head of no group starts when the view turns off air (R43, R134). -/
theorem viewSet_starts (copy : e.copy = some c) (plan : e.plan = some p) (taken : e.take = true)
    (claimed : e.stage = .claimed) (off : view = false) (mode : e.mode ≠ .group) (active : s.control.station = .active)
    (idle : s.profile.motion = .idle) (clear : s.control.restartPending = false) (last : rest = []) (none : s.peers = [])
    (long : 1 ≤ p.common.getD p.duration) :
    retestHead (viewSet view b s) = moveStarted e [] c p (viewSet view b s) := by
  subst last
  have goes : deferred e (viewSet view b s) = false := by simp [deferred, viewSet, off]
  have test := testHead_starts (s := viewSet view b s) list goes claimed taken mode active idle clear
  have begun := startHead_long (s := viewSet view b s) list copy plan idle (.inl none) long
  rw [retestHead_of (test.trans begun)]
  exact takeUpSecond_no (prePlanAllowed_short (by simp [moveStarted, moveBegun]))

/-- A taken CLAIMED head of a group enters GROUP_WAIT when the view turns off air (R44, R134). -/
theorem viewSet_joins (taken : e.take = true) (claimed : e.stage = .claimed) (off : view = false) (mode : e.mode = .group) :
    retestHead (viewSet view b s) = { viewSet view b s with
      cues := { e with stage := .groupWait } :: rest
      bus := { (viewSet view b s).bus with
        readyFifo := fifoJoined ⟨e.group.getD 0, e.tag, ownDuration e, (configOf s).startDelay, false, false⟩ (readySent s)
          s.bus.readyFifo }
      groups := { s.groups with waitTimer := true } } := by
  have goes : deferred e (viewSet view b s) = false := by simp [deferred, viewSet, off]
  exact retestHead_of (testHead_group (s := viewSet view b s) list goes claimed taken mode)

end

/-- Settles O38: the view set, and the head then deferred, started, or put into GROUP_WAIT by its test. -/
theorem tallySetsTheOnAirView : Obligations.TallySetsTheOnAirView := by
  intro s hearing
  refine ⟨fun h program other source pedestal => ?_, fun off => ?_, fun on still report => ?_⟩
  · have effect := exec_tally (program := program) hearing other source pedestal
    dsimp only
    generalize program.getLsbD (s.control.number - 1) = view at *
    refine ⟨fun same => ?_, fun changes => ?_⟩
    · rw [effect, setView_same (s := tallyHeard (endSpent s)) same.symm, same]
      rfl
    · obtain ⟨b, changed⟩ := setView_changes (s := tallyHeard (endSpent s)) (Ne.symm changes)
      rw [changed] at effect
      refine ⟨_, effect, ?_, fun still => ?_, fun e rest c p list copy plan stage => ⟨fun waits => ?_, fun taken guarded on => ?_,
        fun taken claimed off => ⟨fun mode active idle clear last none legs long => ?_, fun g mode group room => ?_⟩⟩⟩
      · exact kept_tally (kept_retestHead (viewSet view b (tallyHeard (endSpent s))))
      · rw [retestHead_of (testHead_still (s := viewSet view b (tallyHeard (endSpent s))) still)]
        exact ⟨rfl, rfl, fun run => rateTarget_viewSet (s := tallyHeard (endSpent s)) (b := b), rfl, rfl, rfl, rfl, rfl, rfl, rfl, rfl, rfl⟩
      · rw [viewSet_waits (s := tallyHeard (endSpent s)) list waits]
        exact ⟨rfl, rfl, rfl, rfl⟩
      · rw [viewSet_defers (s := tallyHeard (endSpent s)) list copy stage taken guarded on]
        exact ⟨rfl, (deferralTold_fields e rest (viewSet view b (tallyHeard (endSpent s)))).2⟩
      · rw [viewSet_starts (s := tallyHeard (endSpent s)) list copy plan taken claimed off mode active idle clear last none long]
        refine ⟨rfl, ?_, if_neg legs, busAfterReport_room (b := (viewSet view b (tallyHeard (endSpent s))).bus)⟩
        rw [off]
        rfl
      · rw [viewSet_joins (s := tallyHeard (endSpent s)) list taken claimed off mode]
        refine ⟨rfl, rfl, ?_⟩
        simp only [fifoJoined_room (show (tallyHeard (endSpent s)).bus.readyFifo.length < 4 from room), group, ownDuration, plan]
        rfl
  · rw [exec_tallyAgeExpiry hearing, off]
    rfl
  · obtain ⟨b, bus, lost⟩ := loseTally_still still report
    refine ⟨_, exec_tallyAgeExpiry hearing, ?_⟩
    rw [on, if_pos rfl, lost]
    exact ⟨rfl, by simp [PerClass.get_set], rfl, rfl, rfl, rfl, rfl, rfl, rfl, rfl⟩

end Sys2Proof.Machine
end

section
/-! Readiness recorded, the start event, and a group's end without a start (R99 to R108). -/
namespace Sys2Proof.Machine

/-! ### The greatest N and G recorded (R104) -/

theorem le_foldl_max (l : List Nat) : ∀ k, k ≤ l.foldl max k ∧ ∀ x ∈ l, x ≤ l.foldl max k := by
  induction l with
  | nil => simp
  | cons y ys ih =>
    intro k
    obtain ⟨start, rest⟩ := ih (max k y)
    refine ⟨by simp only [List.foldl_cons]; omega, fun x mem => ?_⟩
    rcases List.mem_cons.mp mem with rfl | later
    · simp only [List.foldl_cons]
      omega
    · exact rest x later

theorem foldl_max_mem (l : List Nat) : ∀ k, l.foldl max k = k ∨ l.foldl max k ∈ l := by
  induction l with
  | nil => simp
  | cons y ys ih =>
    intro k
    rcases ih (max k y) with start | later
    · rw [List.foldl_cons, start]
      rcases Nat.le_total k y with le | le
      · exact .inr (by simp [le])
      · exact .inl (by simp [le])
    · exact .inr (List.mem_cons_of_mem _ later)

/-- The greatest of a list that is not empty is one of its members. -/
theorem foldl_max_mem_of_ne_nil {l : List Nat} (some : l ≠ []) : l.foldl max 0 ∈ l := by
  rcases foldl_max_mem l 0 with zero | mem
  · obtain ⟨x, xs, rfl⟩ := List.exists_cons_of_ne_nil some
    have least := (le_foldl_max (x :: xs) 0).2 x (by simp)
    rw [zero] at least ⊢
    simp [Nat.le_zero.mp least]
  · exact mem

theorem mem_recorded {r : GroupRecord} {n g : Nat} : (n, g) ∈ recorded r ↔ ∃ m ∈ r.slots, m.ready = some (n, g) := by
  simp [recorded]

/-- A common N and G are the greatest recorded, and with a slot recorded they are recorded ones (R104). -/
theorem common_greatest (r : GroupRecord) (all : ∀ m ∈ r.slots, m.ready ≠ none) :
    (r.slots ≠ [] → (∃ m ∈ r.slots, ∃ g', m.ready = some (commonN r, g')) ∧
        ∃ m ∈ r.slots, ∃ n', m.ready = some (n', commonG r)) ∧
      ∀ m ∈ r.slots, ∀ n' g', m.ready = some (n', g') → n' ≤ commonN r ∧ g' ≤ commonG r := by
  refine ⟨fun some => ?_, fun m slot n' g' ready => ?_⟩
  · obtain ⟨m, slot⟩ := List.exists_mem_of_ne_nil _ some
    obtain ⟨⟨n, g⟩, ready⟩ := Option.ne_none_iff_exists'.mp (all m slot)
    have member : (n, g) ∈ recorded r := mem_recorded.mpr ⟨m, slot, ready⟩
    obtain ⟨⟨a, b⟩, first, isN⟩ := List.mem_map.mp (foldl_max_mem_of_ne_nil (List.ne_nil_of_mem (List.mem_map_of_mem (f := Prod.fst) member)))
    obtain ⟨⟨c, d⟩, second, isG⟩ := List.mem_map.mp (foldl_max_mem_of_ne_nil (List.ne_nil_of_mem (List.mem_map_of_mem (f := Prod.snd) member)))
    obtain ⟨m₁, slot₁, ready₁⟩ := mem_recorded.mp first
    obtain ⟨m₂, slot₂, ready₂⟩ := mem_recorded.mp second
    have isN : a = commonN r := isN
    have isG : d = commonG r := isG
    exact ⟨⟨m₁, slot₁, b, isN ▸ ready₁⟩, ⟨m₂, slot₂, c, isG ▸ ready₂⟩⟩
  · have member : (n', g') ∈ recorded r := mem_recorded.mpr ⟨m, slot, ready⟩
    exact ⟨(le_foldl_max _ 0).2 _ (List.mem_map_of_mem (f := Prod.fst) member),
      (le_foldl_max _ 0).2 _ (List.mem_map_of_mem (f := Prod.snd) member)⟩

/-! ### Readiness recorded (R100, R103) -/

theorem complete_iff {r : GroupRecord} : complete r = true ↔ ∀ m ∈ r.slots, m.ready ≠ none := by
  simp [complete, Option.isSome_iff_ne_none]

section
variable {s : State} {r : GroupRecord} {n a b : Nat} (only : s.groups.records = [r])
include only

theorem groupRecord_only {g : Byte} (same : r.group = g) : groupRecord g s = some r := by
  simp [groupRecord, only, same]

theorem modifyRecord_only (f : GroupRecord → GroupRecord) :
    modifyRecord r.group f s = { s with groups := { s.groups with records := [f r] } } := by
  simp [modifyRecord, only]

/-- With a slot missing, a readiness is only recorded. -/
theorem recordReadiness_missing (missing : ∃ m ∈ (recordSlot n a b r).slots, m.ready = none) :
    recordReadiness r.group n a b s = { s with groups := { s.groups with records := [recordSlot n a b r] } } := by
  have incomplete : complete (recordSlot n a b r) = false := by
    obtain ⟨m, slot, none⟩ := missing
    exact Bool.eq_false_iff.mpr fun all => complete_iff.mp all m slot none
  have found : groupRecord r.group { s with groups := { s.groups with records := [recordSlot n a b r] } } =
      some (recordSlot n a b r) := groupRecord_only (r := recordSlot n a b r) rfl rfl
  rw [recordReadiness, modifyRecord_only only]
  simp only [found, incomplete]
  rfl

/-- The start event of the only record, owned by the only entry (R104). -/
def groupScheduled (e : CueEntry) (r : GroupRecord) (s : State) : State :=
  { s with
    cues := [{ e with plan := e.plan.map fun p => resplit p (commonN r) }]
    groups :=
      { records := [{ r with state := .starting, commonN := some (commonN r), commonG := some (commonG r) }]
        waitTimer := false, startDelay := some (commonG r) } }

theorem startEvent_only {e : CueEntry} (list : s.cues = [e]) (owns : e.group = some r.group) :
    startEvent r s = groupScheduled e r s := by
  have index : ∀ t : State, t.cues = [e] → groupIndex r.group t = some 0 := fun t list =>
    cueIndex_at (before := []) list (by simp [owns]) (by simp)
  rw [startEvent, modifyRecord_only only]
  have found := index { s with groups :=
    { records := [{ r with state := .starting, commonN := some (commonN r), commonG := some (commonG r) }]
      waitTimer := false, startDelay := some (commonG r) } } list
  simp only [found]
  simp only [resplitAtCue, modifyCue, list, List.modify_zero_cons]
  rfl

/-- The last readiness is the start event (R104). -/
theorem recordReadiness_last {e : CueEntry} (all : ∀ m ∈ (recordSlot n a b r).slots, m.ready ≠ none) (list : s.cues = [e])
    (owns : e.group = some r.group) :
    recordReadiness r.group n a b s = groupScheduled e (recordSlot n a b r) s := by
  have found : groupRecord r.group { s with groups := { s.groups with records := [recordSlot n a b r] } } =
      some (recordSlot n a b r) := groupRecord_only (r := recordSlot n a b r) rfl rfl
  rw [recordReadiness, modifyRecord_only only]
  simp only [found, complete_iff.mpr all, if_true]
  exact startEvent_only (r := recordSlot n a b r)
    (s := { s with groups := { s.groups with records := [recordSlot n a b r] } }) rfl list owns

end

theorem takeReady_only {s : State} {r : GroupRecord} {n : Nat} {p : ReadyPayload} (only : s.groups.records = [r])
    (group : r.group = p.group) (collecting : r.state = .collecting) (member : ∃ m ∈ r.slots, m.number = n) :
    takeReady n p s = if readyWithdrawn p then abandonGroup r.group s
      else recordReadiness r.group n p.duration.toNat p.delay.toNat s := by
  have slot : (r.slots.any fun m => m.number == n) = true := by simpa using member
  rw [takeReady, groupRecord_only only group]
  simp only [slot, collecting, beq_self_eq_true, Bool.and_self, if_true, group]

/-- Settles O45: the readiness is recorded in the member's slot, and the last one is the start event. -/
theorem readyIsRecordedAndStartsTheGroup : Obligations.ReadyIsRecordedAndStartsTheGroup := by
  intro s h p r hearing other only group collecting readiness member slots
  have taken : exec (.ready h p) s =
      .next (recordReadiness r.group (sourceOf h) p.duration.toNat p.delay.toNat (endSpent s)) := by
    refine (next_heard hearing other _).trans (congrArg _ ?_)
    rw [takeReady_only (s := endSpent s) only group collecting member, readyWithdrawn, readiness]
    rfl
  refine ⟨fun missing => ?_, fun e all list owns => ?_⟩
  · rw [taken, recordReadiness_missing (s := endSpent s) only missing]
    rfl
  · have greatest := common_greatest (recordSlot (sourceOf h) p.duration.toNat p.delay.toNat r) all
    obtain ⟨m, slot, _⟩ := member
    obtain ⟨recordedN, recordedG⟩ := greatest.1 (List.ne_nil_of_mem (List.mem_map_of_mem slot))
    refine ⟨_, _, ?_, recordedN, recordedG, greatest.2⟩
    rw [taken, recordReadiness_last (s := endSpent s) only all list owns]
    rfl

/-! ### A group's end without a start (R106, R107) -/

section
variable {s : State} {e : CueEntry} {r : GroupRecord} (list : s.cues = [e]) (waits : e.stage = .groupWait)
  (owns : e.group = some r.group) (only : s.groups.records = [r])

/-- The only entry leaves GROUP_WAIT, no peer known: nothing is left to take up. -/
theorem leaveAt_only (o : CueOutcome) (withdraw : Bool) (list : s.cues = [e]) (none : s.peers = []) :
    leaveAt 0 o withdraw s = without [] [] o e withdraw s :=
  (leaveAt_eq (before := []) o withdraw list none).trans (takeUpHead_nil (s := without [] [] o e withdraw s) rfl)

include waits owns only in
theorem groupsWithout_only : groupsWithout e s.groups = ⟨[], false, none⟩ := by
  simp [groupsWithout, waits, owns, only]

include waits owns only in
theorem fifoWithout_collecting (collecting : r.state = .collecting) :
    fifoWithout e true s = fifoWithdrawn r.group e.tag (readySent s) s.bus.readyFifo := by
  have state : entryGroupState e s = some .collecting := by
    simp [entryGroupState, owns, groupRecord_only only rfl, collecting]
  rw [fifoWithout, if_pos (by simp [waits, state]), owns]
  rfl

theorem busWithout_room {k : Nat} {o : CueOutcome} {withdraw : Bool} (room : s.bus.reportFifo.length < 8) :
    (busWithout k o e withdraw s).reportFifo = s.bus.reportFifo ++ [.cue e.tag o] := busAfterReport_room room

end

theorem orphanSent_eq (g : Byte) (s : State) :
    orphanSent g s = { s with bus := { s.bus with
      readyFifo := (s.bus.readyFifo.take (readySent s)).map (orphaned g) ++ s.bus.readyFifo.drop (readySent s) } } := rfl

theorem dropReadiness_eq {s : State} {g : Byte} {sent later : List QueuedReady} (split : s.bus.readyFifo = sent ++ later)
    (length : sent.length = readySent s) :
    dropReadiness g s = { s with bus := { s.bus with
      readyFifo := sent.map (orphaned g) ++ later.filter fun q => !isReadiness g q } } := by
  have same : readySent (orphanSent g s) = readySent s := readySent_eq rfl
  have take : (sent.map (orphaned g) ++ later).take sent.length = sent.map (orphaned g) :=
    List.take_left' (List.length_map _)
  have drop : (sent.map (orphaned g) ++ later).drop sent.length = later := List.drop_left' (List.length_map _)
  unfold dropReadiness
  dsimp only
  rw [same, orphanSent_eq, split, ← length, List.take_left, List.drop_left]
  dsimp only
  rw [take, drop]

/-- Settles O46: the only entry leaves with its record; only the READY FIFO tells a withdrawal heard from a time-out. -/
theorem groupEndsWithoutAStart : Obligations.GroupEndsWithoutAStart := by
  intro s e r sent later hearing list waits owns only collecting none split length gone own marked withdrawal
  have goes : ∀ (o : CueOutcome) (withdraw : Bool) (u : State), u = { s with groups := u.groups, bus := u.bus } →
      u.groups.records = [r] → gone (without [] [] o e withdraw u) := fun o withdraw u same records => by
    have past : ¬(e.stage = .queued ∨ e.stage = .running) := by simp [waits]
    rw [same]
    exact ⟨rfl, groupsWithout_only waits owns records, rfl, if_neg past, if_neg past, rfl, rfl, rfl, rfl, rfl, rfl⟩
  refine ⟨fun h p other group withdraws member => ?_, fun on => ?_, fun off => ?_⟩
  · have index : groupIndex r.group (endSpent s) = some 0 :=
      cueIndex_at (before := []) (s := endSpent s) list (by simp [owns]) (by simp)
    have effect : exec (.ready h p) s =
        .next (leaveAt 0 (.failed .groupAbandoned) false (dropReadiness r.group (endSpent s))) := by
      refine (next_heard hearing other _).trans (congrArg _ ?_)
      rw [takeReady_only (s := endSpent s) only group.symm collecting member, readyWithdrawn, withdraws, if_pos rfl,
        abandonGroup, index]
    have dropped := dropReadiness_eq (s := endSpent s) (g := r.group) split length
    rw [dropped, leaveAt_only (.failed .groupAbandoned) false (by exact list) (by exact none)] at effect
    refine ⟨_, effect, goes _ _ _ rfl only, ?_, fun room => busWithout_room (by exact room)⟩
    have marks : sent.map (orphaned r.group) = marked := List.map_congr_left fun q _ => orphaned_eq r.group q
    have kept : (later.filter fun q => !isReadiness r.group q) = later.filter fun q => decide ¬own q :=
      List.filter_congr fun q _ => by
        by_cases here : own q
        · rw [isReadiness_iff.mpr here]
          exact (decide_eq_false (not_not.mpr here)).symm
        · rw [Bool.eq_false_iff.mpr (mt isReadiness_iff.mp here)]
          exact (decide_eq_true here).symm
    rw [← marks, ← kept]
    show fifoWithout e false _ = _
    exact fifoWithout_quiet (.inl rfl)
  · have effect : exec .groupWaitExpiry s = .next (if s.groups.waitTimer then expireGroupWait s else s) :=
      next_hearing hearing _
    rw [on, if_pos rfl, expireGroupWait, leaveAt_only _ true (by exact list) (by exact none)] at effect
    have placed := withdrawalPlaced_of (t := without [] [] (.failed .groupTimeout) e true
      { s with groups := { s.groups with waitTimer := false } })
      (fifoWithout_collecting (s := { s with groups := { s.groups with waitTimer := false } }) waits owns only collecting)
    obtain ⟨replaced, joined⟩ := placed sent later split length
    exact ⟨_, effect, goes _ _ _ rfl only, replaced, joined, fun room => busWithout_room (by exact room)⟩
  · have effect : exec .groupWaitExpiry s = .next (if s.groups.waitTimer then expireGroupWait s else s) :=
      next_hearing hearing _
    rw [effect, off]
    rfl

end Sys2Proof.Machine
end

section
/-! The scheduled start of a group move (R105), and what a completed transmission does by its frame (R144). -/
namespace Sys2Proof.Machine

/-! ### The start delay timer (R105) -/

/-- The only record, of the group of the only entry, ENDED, and the start delay timer stopped. -/
def recordEnded (r : GroupRecord) (s : State) : State :=
  { s with groups := { s.groups with records := [{ r with state := .ended }], startDelay := none } }

theorem exec_startDelayExpiry {s : State} (hearing : hears s) :
    exec .startDelayExpiry s = .next (if s.groups.startDelay.isSome then expireStartDelay s else s) := next_hearing hearing _

theorem expireStartDelay_starts {s : State} {e : CueEntry} {r : GroupRecord} (active : s.control.station = .active)
    (list : s.cues = [e]) (waits : e.stage = .groupWait) (owns : e.group = some r.group) (only : s.groups.records = [r])
    (starting : r.state = .starting) : expireStartDelay s = groupStart { s with groups := { s.groups with startDelay := none } } := by
  have state : entryGroupState e { s with groups := { s.groups with startDelay := none } } = some .starting := by
    have found := groupRecord_only (s := { s with groups := { s.groups with startDelay := none } }) only rfl
    simp [entryGroupState, owns, found, starting]
  have ready : headStarting { s with groups := { s.groups with startDelay := none } } = true := by
    simp only [headStarting, list, waits]
    rw [list] at state
    rw [state]
    rfl
  rw [expireStartDelay, if_pos ⟨active, ready⟩]

theorem endRecord_only {s : State} {e : CueEntry} {r : GroupRecord} (list : s.cues = [e]) (owns : e.group = some r.group)
    (only : s.groups.records = [r]) :
    endRecord { s with groups := { s.groups with startDelay := none } } = recordEnded r s := by
  have group : s.cues.head?.bind CueEntry.group = some r.group := by simp [list, owns]
  rw [endRecord]
  simp only [group]
  rw [modifyRecord_only (s := { s with groups := { s.groups with startDelay := none } }) only]
  rfl

/-- Settles O47: the head starts its plan whatever the on-air view, and one of N 0 completes at once. -/
theorem startDelayExpiryStartsTheMove : Obligations.StartDelayExpiryStartsTheMove := by
  intro s hearing
  refine ⟨fun off => ?_, fun e r c p g running active list waits owns only starting copy plan idle none => ?_⟩
  · rw [exec_startDelayExpiry hearing, off]
    rfl
  · have effect := exec_startDelayExpiry hearing
    rw [running, Option.isSome_some, if_pos rfl, expireStartDelay_starts active list waits owns only starting, groupStart,
      endRecord_only list owns only] at effect
    by_cases zero : p.common.getD p.duration = 0
    · have ended := startHead_zero (s := recordEnded r s) list copy plan idle none zero
      have nothing := takeUpHead_nil (s := moveCompleted e [] c p (recordEnded r s)) rfl
      simp only [ended, nothing] at effect
      refine ⟨_, effect, rfl, rfl, rfl, rfl, rfl, fun long => absurd zero (by omega), fun _ => ⟨rfl, ?_, rfl, rfl, rfl, fun room => ?_⟩⟩
      · show groupsWithout { e with stage := .running } _ = _
        have none : ([{ r with state := .ended }] : List GroupRecord).filter (fun q => decide (e.group ≠ some q.group)) = [] := by
          simp [owns]
        rw [groupsWithout]
        exact congrArg (fun l => ({ s.groups with records := l, startDelay := Option.none } : Groups)) none
      · have first : (busAfterReport (.cue e.tag .started) s.bus).reportFifo = s.bus.reportFifo ++ [.cue e.tag .started] :=
          busAfterReport_room (by omega)
        show (busAfterReport (.cue e.tag .completed) (busMarked _ (busAfterReport (.cue e.tag .started) s.bus))).reportFifo = _
        rw [busAfterReport_room (by rw [busMarked_reportFifo, first]; simp; omega), busMarked_reportFifo, first]
        simp
    · have long : 1 ≤ p.common.getD p.duration := by omega
      have begun := startHead_long (s := recordEnded r s) list copy plan idle (.inl none) long
      have nothing := takeUpSecond_no (s := moveStarted e [] c p (recordEnded r s))
        (prePlanAllowed_short (by simp [moveStarted, moveBegun]))
      simp only [begun, nothing] at effect
      exact ⟨_, effect, rfl, rfl, rfl, rfl, rfl, fun _ => ⟨rfl, rfl, rfl, rfl, fun room => busAfterReport_room room⟩,
        fun z => absurd z zero⟩

/-! ### Transmission completion (R144) -/

theorem exec_transmissionCompletion {s : State} (hearing : hears s) :
    exec .transmissionCompletion s = .next (completeTransmission s) := next_hearing hearing _

theorem startSettle_eq (f : StateFrame) (added : Bool) (s : State) :
    startSettle f added s = { s with claims := { s.claims with
      settleTimer := s.claims.settleTimer ||
        decide ((∃ e ∈ s.cues, e.stage = .claiming) ∧ added = false ∧
          ∀ o ∈ s.claims.own, o.claim.state ≠ .held → ∃ c ∈ f.claims, c.rect = o.claim.rect ∧ c.state = o.claim.state) } } := by
  have carried : carriedPending f added s = true ↔ added = false ∧
      ∀ o ∈ s.claims.own, o.claim.state ≠ .held → ∃ c ∈ f.claims, c.rect = o.claim.rect ∧ c.state = o.claim.state := by
    simp [carriedPending, isHeld, announces, or_iff_not_imp_left]
  have starts : (s.cues.any (fun e => e.stage == .claiming) && carriedPending f added s) =
      decide ((∃ e ∈ s.cues, e.stage = .claiming) ∧ added = false ∧
        ∀ o ∈ s.claims.own, o.claim.state ≠ .held → ∃ c ∈ f.claims, c.rect = o.claim.rect ∧ c.state = o.claim.state) := by
    rw [Bool.eq_iff_iff, Bool.and_eq_true, decide_eq_true_iff, carried]
    simp
  rw [startSettle, Bool.and_right_comm, ← starts]
  generalize (s.cues.any (fun e => e.stage == .claiming) && carriedPending f added s) = starts
  have same : s.claims = { s.claims with settleTimer := s.claims.settleTimer } := rfl
  generalize s.claims.settleTimer = on at same ⊢
  cases on <;> cases starts
  case false.true => rfl
  all_goals
    simp only [Bool.not_true, Bool.not_false, Bool.and_false, Bool.and_true, Bool.false_eq_true, if_false, Bool.or_false,
      Bool.or_true, ← same]

/-- Settles O49: each frame's completion is the common end of a transmission and the effect of its kind. -/
theorem transmissionCompletionByFrame : Obligations.TransmissionCompletionByFrame := by
  intro s x hearing transmits bus
  have effect : ∀ t, completeTransmission s = t → exec .transmissionCompletion s = .next t := fun t same => by
    rw [exec_transmissionCompletion hearing, same]
  have sentOut : ∀ r, x.frame = .ready r → completeTransmission s = readySentOut r (endTransmission s) := fun r frame => by
    simp only [completeTransmission, transmits, frame]
  refine ⟨fun r frame => effect _ ?_, fun n status body frame => effect _ ?_, fun f frame => effect _ ?_,
    fun r frame withdrawn => effect _ ?_, fun r q rest frame kept queue orphan => effect _ ?_,
    fun r q rest frame kept queue owned only group collecting => ?_⟩
  · simp only [completeTransmission, transmits, frame]
    rfl
  · simp only [completeTransmission, transmits, frame]
    cases x.cursorReplaced <;> rfl
  · simp only [completeTransmission, transmits, frame, stateSentOut, startSettle_eq]
    have lost : (s.bus.reportsLost && !(f.reportsLost && !x.reportDiscarded)) =
        (s.bus.reportsLost && (!f.reportsLost || x.reportDiscarded)) := by
      cases f.reportsLost <;> cases x.reportDiscarded <;> rfl
    rw [← lost]
    rfl
  · rw [sentOut r frame, readySentOut, withdrawn]
    rfl
  · have marked : ((endTransmission s).bus.readyFifo.head?.map QueuedReady.orphan).getD false = true := by
      simp [endTransmission, queue, orphan]
    simp only [sentOut r frame, readySentOut, kept, marked, if_true, Bool.false_eq_true, if_false]
    simp only [endTransmission, queue, List.tail_cons]
    rfl
  · have unmarked : ((endTransmission s).bus.readyFifo.head?.map QueuedReady.orphan).getD false = false := by
      simp [endTransmission, queue, owned]
    let v : State := { s with bus := { bus with readyFifo := rest } }
    have left : { endTransmission s with bus := { (endTransmission s).bus with
        readyFifo := (endTransmission s).bus.readyFifo.tail } } = v := by
      simp only [endTransmission, queue, List.tail_cons]
      rfl
    have found : groupRecord r.group v = some q := groupRecord_only (s := v) only group
    have records : completeTransmission s = recordReadiness q.group s.control.number r.duration r.delay v := by
      simp only [sentOut r frame, readySentOut, kept, unmarked, Bool.false_eq_true, if_false, left, found, collecting, if_true, group]
      rfl
    refine ⟨fun missing => effect _ ?_, fun e all list owns => ?_⟩
    · rw [records, recordReadiness_missing (s := v) only missing]
      rfl
    · have greatest := common_greatest (recordSlot s.control.number r.duration r.delay q) all
      refine ⟨_, _, effect _ ?_, greatest.1, greatest.2⟩
      rw [records, recordReadiness_last (s := v) only all list owns]
      rfl

end Sys2Proof.Machine
end

section
/-! The settle and claim wait timers (R77, R81). -/
namespace Sys2Proof.Machine

/-- The entry at a place settled: CLAIMED, its rectangles HELD, the claim timers stopped. -/
def entrySettled (before rest : List CueEntry) (e : CueEntry) (kind : ClaimKind) (s : State) : State :=
  { s with
    cues := before ++ { e with stage := .claimed } :: rest
    claims := settledClaims kind s
    bus := busMarked (decide ((settledClaims kind s).own ≠ s.claims.own) && onBus s) s.bus }

theorem holdClaims_eq {k : Nat} {kind : ClaimKind} (place : (k = 0 ∧ kind = .leg) ∨ (k = 1 ∧ kind = .nextLeg)) (s : State) :
    holdClaims k s.claims.own = (settledClaims kind s).own := by
  rcases place with ⟨rfl, rfl⟩ | ⟨rfl, rfl⟩ <;>
  · refine List.map_congr_left fun o _ => ?_
    simp [ownedAt]

theorem settledClaims_ne {kind : ClaimKind} {s : State} (pending : ∃ o ∈ s.claims.own, o.claim.kind = kind ∧ o.claim.state ≠ .held) :
    (settledClaims kind s).own ≠ s.claims.own := by
  obtain ⟨o, mem, isKind, waits⟩ := pending
  intro same
  have fixed := List.map_eq_map_iff.mp (same.trans (List.map_id _).symm) o mem
  rw [if_pos isKind] at fixed
  exact waits (congrArg (fun q : OwnClaim => q.claim.state) fixed).symm

section
variable {s : State} {before rest : List CueEntry} {e : CueEntry} {kind : ClaimKind}

theorem entrySettled_marker (pending : ∃ o ∈ s.claims.own, o.claim.kind = kind ∧ o.claim.state ≠ .held) (on : onBus s = true) :
    (entrySettled before rest e kind s).bus.stateMarker = true := by
  simp [entrySettled, settledClaims_ne pending, on]

theorem expireSettle_eq (place : (before.length = 0 ∧ kind = .leg) ∨ (before.length = 1 ∧ kind = .nextLeg))
    (list : s.cues = before ++ e :: rest) (claiming : e.stage = .claiming) (earlier : ∀ x ∈ before, x.stage ≠ .claiming)
    (none : s.peers = []) :
    expireSettle s = if before.length = 0 then retestHead (entrySettled before rest e kind s) else entrySettled before rest e kind s := by
  have index : cueIndex (fun e => e.stage == .claiming) s = some before.length :=
    cueIndex_at list (by simp [claiming]) (fun x mem => by simp [earlier x mem])
  have settled : modifyCue before.length (fun e => { e with stage := .claimed })
      (stopClaimTimers (setOwn (holdClaims before.length s.claims.own) s)) = entrySettled before rest e kind s := by
    rw [setOwn_eq, holdClaims_eq place]
    exact modifyCue_at _ (by exact list)
  have quiet : ∀ t : State, t.peers = s.peers → overlapAll t = t := fun t same => overlapAll_noPeers (same.trans none)
  simp only [expireSettle, index, settleAt, settled]
  refine quiet _ ?_
  split
  · exact kept_peers (kept_retestHead (entrySettled before rest e kind s))
  · rfl

end

theorem exec_settleExpiry {s : State} (hearing : hears s) :
    exec .settleExpiry s = .next (if s.claims.settleTimer then expireSettle s else s) := next_hearing hearing _

theorem exec_claimWaitExpiry {s : State} (hearing : hears s) :
    exec .claimWaitExpiry s = .next (if s.claims.claimWaitTimer then expireClaimWait s else s) := next_hearing hearing _

/-- The claim wait timer fails the only entry that waits (R77). -/
theorem expireClaimWait_only {s : State} {e : CueEntry} (list : s.cues = [e]) (waits : e.stage = .routing ∨ e.stage = .claiming)
    (none : s.peers = []) :
    expireClaimWait s = setMarker (without [] [] (.failed .floorTimeout) e false s) := by
  have index : waitingIndex s = some 0 := by
    refine cueIndex_at (before := []) list ?_ (by simp)
    rcases waits with stage | stage <;> simp [stage]
  simp only [expireClaimWait, index, leaveAt_only _ false list none]

/-- Settles O51: the settled head is tested as at any other event, a settled second entry is not. -/
theorem claimTimersSettleOrFail : Obligations.ClaimTimersSettleOrFail := by
  intro s e rest hearing claimed kept still
  have settle := exec_settleExpiry hearing
  have wait := exec_claimWaitExpiry hearing
  refine ⟨fun off => ?_, fun off => ?_, fun on list claiming none => ?_, fun d on list other claiming none => ?_,
    fun on list waits single none => ?_⟩
  · rw [settle, off]
    rfl
  · rw [wait, off]
    rfl
  · have expires := expireSettle_eq (before := []) (kind := .leg) (.inl ⟨rfl, rfl⟩) list claiming (by simp) none
    rw [on, if_pos rfl, expires, if_pos List.length_nil] at settle
    have keeps : kept (entrySettled [] rest e .leg s) := ⟨rfl, rfl, rfl, rfl, rfl⟩
    refine ⟨fun untaken => ?_, fun c p taken copy plan => ⟨fun guarded air => ?_, fun free => ?_⟩⟩
    · have test := testHead_waits (s := entrySettled [] rest e .leg s) (e := claimed) rfl (by simp [deferred, claimed, untaken])
        (.inr untaken)
      rw [retestHead_of test] at settle
      exact ⟨_, settle, rfl, rfl, entrySettled_marker, rfl, rfl, keeps, rfl, rfl⟩
    · have defers : deferred claimed (entrySettled [] rest e .leg s) = true := by
        rw [deferred_planned (e := claimed) (f := e) copy rfl (.inr (.inr rfl)), taken, guarded]
        simpa [entrySettled] using air
      rw [retestHead_of (testHead_deferred rfl defers)] at settle
      exact ⟨_, settle, rfl, rfl, (deferralTold_fields claimed rest (entrySettled [] rest e .leg s)).2, rfl, keeps, rfl, rfl⟩
    · have goes : deferred claimed (entrySettled [] rest e .leg s) = false := by
        rw [deferred_planned (e := claimed) (f := e) copy rfl (.inr (.inr rfl))]
        rcases free with live | off
        · simp [live]
        · simp [entrySettled, off]
      refine ⟨fun g mode group room => ?_, fun mode active idle clear legs long => ?_⟩
      · rw [retestHead_of (testHead_group rfl goes rfl taken mode)] at settle
        refine ⟨_, settle, rfl, rfl, rfl, ?_, rfl, keeps, rfl, rfl⟩
        simp only [fifoJoined_room (show (entrySettled [] rest e .leg s).bus.readyFifo.length < 4 from room), claimed, group,
          ownDuration, plan]
        rfl
      · have test := testHead_starts (s := entrySettled [] rest e .leg s) rfl goes rfl taken mode active idle clear
        have begun := startHead_long (s := entrySettled [] rest e .leg s) (e := claimed) rfl copy plan idle (.inl none) long
        rw [retestHead_of (test.trans begun)] at settle
        intro running
        refine ⟨moveStarted claimed rest c p (entrySettled [] rest e .leg s), ⟨rfl, rfl, rfl, rfl, rfl⟩, rfl, rfl, rfl, rfl,
          ?_, ?_, fun room => busAfterReport_room (by exact room), fun last => ?_, fun f more two queued => ⟨_, settle, ?_⟩⟩
        · simp [moveStarted, moveBegun, entrySettled]
        · simp [moveStarted, ownStarted, legs, entrySettled]
        · rw [settle, takeUpSecond_no (prePlanAllowed_short (by simp [moveStarted, moveBegun, last]))]
        · exact takeUpSecond_planningMakes (u := moveStarted claimed rest c p (entrySettled [] rest e .leg s)) (d := running)
            (by rw [← two]; rfl) rfl plan queued
            (by show (if s.profile.hold then MotionState.held else .running) ≠ .stopping; split <;> simp) active
  · have expires := expireSettle_eq (before := [d]) (kind := .nextLeg) (.inr ⟨rfl, rfl⟩) list claiming (by simpa using other) none
    rw [on, if_pos rfl, expires, if_neg (by simp)] at settle
    exact ⟨_, settle, rfl, rfl, entrySettled_marker, rfl, rfl, ⟨rfl, rfl, rfl, rfl, rfl⟩, rfl, rfl⟩
  · rw [on, if_pos rfl, expireClaimWait_only list waits none, setMarker_eq] at wait
    have past : ¬(e.stage = .queued ∨ e.stage = .running) := by rcases waits with stage | stage <;> simp [stage]
    refine ⟨_, wait, rfl, ?_, fun room => busAfterReport_room room, ?_, rfl, rfl, rfl, rfl, groupsWithout_none single _, rfl, rfl⟩
    · show claimsWithout 0 e s.claims = _
      rw [claimsWithout, if_neg past, if_neg past]
      rfl
    · have marker : (without [] [] (.failed .floorTimeout) e false s).bus.stateMarker = (s.bus.stateMarker ||
          (decide ((claimsWithout 0 e s.claims).own ≠ s.claims.own) && onBus s)) := by
        simp only [without, busWithout, busMarked_stateMarker, busAfterReport_stateMarker, List.length_nil]
      refine (congrArg (· || onBus s) marker).trans ?_
      cases onBus s <;> simp

end Sys2Proof.Machine
end

section
/-! What is written into the store reads back, and what is sent is received (R142, R143, R186, R187, chapter 12). -/
namespace Sys2Proof.Machine

/-! ### Bytes and fields of a list of bytes -/

theorem byteAt_append_left {l m : List Byte} {i : Nat} (inside : i < l.length) : byteAt (l ++ m) i = byteAt l i := by
  simp [byteAt, List.getElem?_append_left inside]

theorem byteAt_append_right (l m : List Byte) (i : Nat) : byteAt (l ++ m) (l.length + i) = byteAt m i := by
  simp [byteAt, List.getElem?_append_right]

theorem word2_append_right (l m : List Byte) (i : Nat) : word2 (l ++ m) (l.length + i) = word2 m i := by
  rw [word2, word2, Nat.add_assoc, byteAt_append_right, byteAt_append_right]

theorem word2_be2 (w : BitVec 16) (m : List Byte) : word2 (be2 w ++ m) 0 = w :=
  BitVec.extractLsb'_append_extractLsb' (w := 8) (len := 8)

theorem word3_be3 (w : Position) (m : List Byte) : word3 (be3 w ++ m) 0 = w := by
  have high : w.extractLsb' 16 8 ++ w.extractLsb' 8 8 = w.extractLsb' 8 16 :=
    BitVec.extractLsb'_append_extractLsb'_eq_extractLsb' (len₂ := 8) (len₁ := 8) rfl
  have all : w.extractLsb' 8 16 ++ w.extractLsb' 0 8 = w := BitVec.extractLsb'_append_extractLsb' (w := 16) (len := 8)
  exact (congrArg (· ++ w.extractLsb' 0 8) high).trans all

theorem checkHolds_withCheck (l : List Byte) : checkHolds (withCheck l) l.length = true := by
  have word : word2 (withCheck l) l.length = crc16 l :=
    (word2_append_right l _ 0).trans ((congrArg (word2 · 0) (List.append_nil _).symm).trans (word2_be2 _ []))
  have bytes : (withCheck l).take l.length = l := List.take_left' rfl
  rw [checkHolds, word, bytes, beq_self_eq_true]

/-! ### A record body and its bytes (chapter 12.4) -/

theorem bodyBytes_length {b : RecordBody} (label : b.label.length = 16) : (bodyBytes b).length = 41 := by
  simp [bodyBytes, PerAxis.toList, Axis.all, label]

/-- The body that the bytes of a body stand for. -/
theorem bodyAt_bodyBytes {b : RecordBody} (x : Byte) (m : List Byte) (label : b.label.length = 16) :
    bodyAt (x :: bodyBytes b ++ m) 1 = b := by
  have targets : ∀ a : Axis, word3 (x :: bodyBytes b ++ m) (1 + 4 + 3 * a.index) = b.targets.get a := fun a => by
    cases a <;> exact word3_be3 (b.targets.get _) []
  have letters : (List.range 16).map (fun k => byteAt (x :: bodyBytes b ++ m) (1 + 25 + k)) = b.label := by
    refine List.ext_getElem (by simp [label]) fun k short long => ?_
    have place : byteAt (x :: bodyBytes b ++ m) (1 + 25 + k) = byteAt (b.label ++ m) k := by
      have split : x :: bodyBytes b ++ m =
          (x :: ([b.mask, b.options] ++ be2 b.moveTime ++ b.targets.toList.flatMap be3)) ++ (b.label ++ m) := by
        simp [bodyBytes]
      rw [split]
      exact byteAt_append_right (x :: ([b.mask, b.options] ++ be2 b.moveTime ++ b.targets.toList.flatMap be3)) (b.label ++ m) k
    rw [List.getElem_map, List.getElem_range, place, byteAt_append_left long]
    simp [byteAt, long]
  have time : word2 (x :: bodyBytes b ++ m) (1 + 2) = b.moveTime := word2_be2 _ []
  have axes : PerAxis.ofFn (fun a => word3 (x :: bodyBytes b ++ m) (1 + 4 + 3 * a.index)) = b.targets :=
    PerAxis.ext_get fun a => (PerAxis.get_ofFn _ a).trans (targets a)
  rw [bodyAt, letters, time, axes]
  rfl

/-! ### A content and its body (R16, R187) -/

/-- The bits of the axis mask are the flags it is built from. -/
theorem maskHas_flags (f : Axis → Bool) (a : Axis) :
    maskHas (BitVec.ofNat 8 ((Axis.all.map fun a => flagBit (f a) a.index).sum)) a = f a := by
  have bits : ∀ x y elevation pan tilt zoom focus : Bool, ∀ a : Axis,
      maskHas (BitVec.ofNat 8 (flagBit x 0 + (flagBit y 1 + (flagBit elevation 2 + (flagBit pan 3 + (flagBit tilt 4 +
        (flagBit zoom 5 + (flagBit focus 6 + 0)))))))) a =
      (PerAxis.mk x y elevation pan tilt zoom focus).get a := by
    intro x y elevation pan tilt zoom focus a
    cases a <;> revert x y elevation pan tilt zoom focus <;> decide
  refine (bits (f .x) (f .y) (f .elevation) (f .pan) (f .tilt) (f .zoom) (f .focus) a).trans ?_
  cases a <;> rfl

/-- The options byte gives back the route hint and the two flags it is built from. -/
theorem options_flags (hint : RouteHint) (live time : Bool) :
    routeHintOf (BitVec.ofNat 8 (hint.code + flagBit live 2 + flagBit time 3)) = some hint ∧
      optionsLive (BitVec.ofNat 8 (hint.code + flagBit live 2 + flagBit time 3)) = live ∧
      optionsMoveTime (BitVec.ofNat 8 (hint.code + flagBit live 2 + flagBit time 3)) = time := by
  cases hint <;> cases live <;> cases time <;> decide

/-- A label within 16 characters and without a null is read back from its padded field. -/
theorem labelOf_padded {l : List Byte} (short : l.length ≤ 16) (letters : ∀ x ∈ l, x ≠ 0) :
    labelOf (l ++ List.replicate (16 - l.length) 0) = l := by
  have whole : (l ++ List.replicate (16 - l.length) 0).take 16 = l ++ List.replicate (16 - l.length) 0 :=
    List.take_of_length_le (by simp; omega)
  rw [labelOf, whole, List.takeWhile_append_of_pos (by simpa using letters)]
  cases 16 - l.length <;> simp [List.replicate_succ]

theorem bodyMoveTime_contentBody (c : ShotContent) : bodyMoveTime (contentBody c) = c.moveTime := by
  have present : optionsMoveTime (contentBody c).options = c.moveTime.isSome := (options_flags _ _ _).2.2
  rw [bodyMoveTime, present]
  cases time : c.moveTime <;> simp [contentBody, time]

/-- The body of a content stands for that content. -/
theorem bodyContent_contentBody {c : ShotContent} (short : c.label.length ≤ 16) (letters : ∀ x ∈ c.label, x ≠ 0) :
    bodyContent (contentBody c) = c := by
  have targets : PerAxis.ofFn (fun a => if maskHas (contentBody c).mask a then some ((contentBody c).targets.get a) else none) =
      c.targets := PerAxis.ext_get fun a => by
    have here : maskHas (contentBody c).mask a = (c.targets.get a).isSome := maskHas_flags _ a
    have value : (contentBody c).targets.get a = (c.targets.get a).getD 0 := PerAxis.get_ofFn _ a
    rw [PerAxis.get_ofFn, here, value]
    cases c.targets.get a <;> rfl
  obtain ⟨hint, live, _⟩ := options_flags c.routeHint c.livePermitted c.moveTime.isSome
  have hint : routeHintOf (contentBody c).options = some c.routeHint := hint
  have live : optionsLive (contentBody c).options = c.livePermitted := live
  have label : labelOf (contentBody c).label = c.label := labelOf_padded short letters
  rw [bodyContent, targets, bodyMoveTime_contentBody, hint, live, label]
  rfl

theorem bodySound_contentBody {c : ShotContent} (time : c.moveTime ≠ some 0) : bodySound (contentBody c) = true := by
  have hint : routeHintOf (contentBody c).options = some c.routeHint := (options_flags _ _ _).1
  rw [bodySound, hint, bodyMoveTime_contentBody, bne_iff_ne.mpr time]
  rfl

/-- The label of a body's content is short and has no null. -/
theorem bodyContent_label (b : RecordBody) :
    (bodyContent b).label.length ≤ 16 ∧ ∀ x ∈ (bodyContent b).label, x ≠ 0 := by
  refine ⟨(List.takeWhile_prefix _).length_le.trans (List.length_take_le 16 _), fun x letter => ?_⟩
  simpa using List.mem_takeWhile_imp letter

/-- Settles O57: the stored form's check word holds, and its body is the content's own, which stands for the content. -/
theorem storedRecordReadsBack : Obligations.StoredRecordReadsBack := by
  intro b sound
  obtain ⟨short, letters⟩ := bodyContent_label b
  have time : (bodyContent b).moveTime ≠ some 0 := by
    rw [bodySound, Bool.and_eq_true] at sound
    exact bne_iff_ne.mp sound.2
  have field : (contentBody (bodyContent b)).label.length = 16 := by
    simp [contentBody]
    omega
  have bytes : (1#8 :: bodyBytes (contentBody (bodyContent b))).length = 42 := by
    rw [List.length_cons, bodyBytes_length field]
  have body : bodyAt (storedForm (.valid (bodyContent b))) 1 = contentBody (bodyContent b) := bodyAt_bodyBytes 1 _ field
  have check : checkHolds (storedForm (.valid (bodyContent b))) 42 = true := by
    rw [← bytes]
    exact checkHolds_withCheck _
  have length : (storedForm (.valid (bodyContent b))).length = 44 := by
    rw [storedForm, withCheck_length]
    exact congrArg (· + 2) bytes
  have status : byteAt (storedForm (.valid (bodyContent b))) 0 = 1 := rfl
  refine ⟨length, ?_, ?_⟩
  · rw [areaSound, length, check, status, body, bodySound_contentBody time]
    rfl
  · rw [areaRecord, status, if_pos rfl, body, bodyContent_contentBody short letters]

/-! ### A STATE frame and its payload (chapter 12.3) -/

/-- The slot whose bytes are those of a claim. -/
def claimSlot (c : Claim) : ClaimSlot :=
  { x0 := byteOf c.rect.x0
    y0 := byteOf c.rect.y0
    x1 := byteOf c.rect.x1
    y1 := byteOf c.rect.y1
    attributes := byteOf (claimKindCode c.kind + match c.state with | .held => 0 | .pending _ => 4)
    rank := match c.state with | .held => 0 | .pending r => byteOf (r.retry + 16 * r.priority) }

theorem claimBytes_length (c : Claim) : (claimBytes c).length = 6 := by
  unfold claimBytes
  cases c.state <;> rfl

theorem slotAt_claimBytes (c : Claim) (front back : List Byte) :
    slotAt (front ++ (claimBytes c ++ back)) front.length = claimSlot c := by
  have byte : ∀ i < 6, byteAt (front ++ (claimBytes c ++ back)) (front.length + i) = byteAt (claimBytes c) i := fun i small => by
    rw [byteAt_append_right, byteAt_append_left (by rw [claimBytes_length]; exact small)]
  rw [slotAt, byte 1 (by omega), byte 2 (by omega), byte 3 (by omega), byte 4 (by omega), byte 5 (by omega),
    ← Nat.add_zero front.length, byte 0 (by omega)]
  unfold claimBytes claimSlot
  cases c.state <;> rfl

theorem cellOf_byteOf {n : Nat} (small : n ≤ 31) : cellOf (byteOf n) = n := by
  simp [cellOf, byteOf]
  omega

/-- A claim within the ranges of its fields is read back from its slot. -/
theorem slotClaim_claimSlot {c : Claim}
    (ranges : c.rect.x0 ≤ c.rect.x1 ∧ c.rect.x1 ≤ 31 ∧ c.rect.y0 ≤ c.rect.y1 ∧ c.rect.y1 ≤ 31 ∧
      ∀ r, c.state = .pending r → r.priority ≤ 3 ∧ r.retry ≤ 15) : slotClaim (claimSlot c) = c := by
  obtain ⟨x, x31, y, y31, rank⟩ := ranges
  have rect : slotRect (claimSlot c) = c.rect := by
    simp only [slotRect, claimSlot, cellOf_byteOf x31, cellOf_byteOf y31, cellOf_byteOf (x.trans x31),
      cellOf_byteOf (y.trans y31), min_eq_left x, max_eq_right x, min_eq_left y, max_eq_right y]
  cases state : c.state with
  | held =>
    have kind : claimKindOf (claimSlot c).attributes = c.kind := by
      simp only [claimSlot, state]
      cases c.kind <;> decide
    have flag : (claimSlot c).attributes.getLsbD 2 = false := by
      simp only [claimSlot, state]
      cases c.kind <;> decide
    rw [slotClaim, rect, kind, flag, if_neg Bool.false_ne_true, ← state]
  | pending r =>
    obtain ⟨priority, retry⟩ := rank r state
    have kind : claimKindOf (claimSlot c).attributes = c.kind := by
      simp only [claimSlot, state]
      cases c.kind <;> decide
    have flag : (claimSlot c).attributes.getLsbD 2 = true := by
      simp only [claimSlot, state]
      cases c.kind <;> decide
    have read : rankOf (claimSlot c).rank = r := by
      have high : (r.retry + 16 * r.priority) % 256 / 16 % 4 = r.priority := by omega
      have low : (r.retry + 16 * r.priority) % 256 % 16 = r.retry := by omega
      have byte : rankOf (byteOf (r.retry + 16 * r.priority)) = ⟨(r.retry + 16 * r.priority) % 256 / 16 % 4,
          (r.retry + 16 * r.priority) % 256 % 16⟩ := by
        simp [rankOf, byteOf, Nat.shiftRight_eq_div_pow]
      simp only [claimSlot, state, byte, high, low]
    rw [slotClaim, rect, kind, flag, if_pos rfl, read, ← state]

/-- The bytes of a STATE payload: 14 bytes, the count, the claims, and zeros. -/
theorem stateBytes_split (f : StateFrame) :
    ∃ front : List Byte, front.length = 14 ∧
      stateBytes f = front ++ (byteOf f.claims.length :: (f.claims.flatMap claimBytes ++
        List.replicate (24 - 6 * f.claims.length) 0)) := by
  rw [stateBytes]
  cases f.head with
  | none =>
    refine ⟨_, ?_, (List.append_assoc _ _ _).trans (List.append_assoc _ _ _)⟩
    rfl
  | some h =>
    refine ⟨_, ?_, (List.append_assoc _ _ _).trans (List.append_assoc _ _ _)⟩
    rfl

theorem flatMap_claimBytes_length (l : List Claim) : (l.flatMap claimBytes).length = 6 * l.length := by
  induction l with
  | nil => rfl
  | cons c cs ih => simp only [List.flatMap_cons, List.length_append, claimBytes_length, ih, List.length_cons]; omega

/-- The slots of a payload whose claims' bytes begin at byte 15. -/
theorem slotAt_flatMap {front back : List Byte} {l : List Claim} {i : Nat} {c : Claim} (length : front.length = 15)
    (here : l[i]? = some c) : slotAt (front ++ (l.flatMap claimBytes ++ back)) (15 + 6 * i) = claimSlot c := by
  obtain ⟨before, after, rfl, rfl⟩ := exists_place here
  have split : front ++ ((before ++ c :: after).flatMap claimBytes ++ back) =
      (front ++ before.flatMap claimBytes) ++ (claimBytes c ++ (after.flatMap claimBytes ++ back)) := by simp
  have place : (front ++ before.flatMap claimBytes).length = 15 + 6 * before.length := by
    rw [List.length_append, length, flatMap_claimBytes_length]
  rw [split, ← place]
  exact slotAt_claimBytes c _ _

/-- A STATE payload sent is received with the claims it carries. -/
theorem payloadClaims_stateBytes {f : StateFrame} (few : f.claims.length ≤ 4)
    (ranges : ∀ c ∈ f.claims, c.rect.x0 ≤ c.rect.x1 ∧ c.rect.x1 ≤ 31 ∧ c.rect.y0 ≤ c.rect.y1 ∧ c.rect.y1 ≤ 31 ∧
      ∀ r, c.state = .pending r → r.priority ≤ 3 ∧ r.retry ≤ 15) (back : List Byte) :
    payloadClaims (statePayloadOf (stateBytes f ++ back)) = f.claims := by
  obtain ⟨front, length, bytes⟩ := stateBytes_split f
  have count : byteAt (stateBytes f ++ back) 14 = byteOf f.claims.length := by
    rw [bytes, List.append_assoc, ← length]
    exact byteAt_append_right front _ 0
  have taken : min (byteOf f.claims.length).toNat 4 = f.claims.length := by
    simp [byteOf]
    omega
  have slots : (statePayloadOf (stateBytes f ++ back)).slots =
      (List.range 4).map fun i => slotAt (stateBytes f ++ back) (15 + 6 * i) := rfl
  have slot : ∀ i c, f.claims[i]? = some c → slotAt (stateBytes f ++ back) (15 + 6 * i) = claimSlot c := fun i c here => by
    have split : stateBytes f ++ back = (front ++ [byteOf f.claims.length]) ++
        (f.claims.flatMap claimBytes ++ (List.replicate (24 - 6 * f.claims.length) 0 ++ back)) := by rw [bytes]; simp
    rw [split]
    exact slotAt_flatMap (by simp [length]) here
  have read : payloadClaims (statePayloadOf (stateBytes f ++ back)) =
      ((List.range 4).map fun i => slotClaim (slotAt (stateBytes f ++ back) (15 + 6 * i))).take f.claims.length := by
    rw [payloadClaims, slots]
    show ((List.map _ _).take (min (byteAt (stateBytes f ++ back) 14).toNat 4)).map slotClaim = _
    rw [count, taken, List.map_take, List.map_map]
    rfl
  rw [read]
  refine List.ext_getElem (by simp [few]) fun i short long => ?_
  have here : f.claims[i]? = some f.claims[i] := List.getElem?_eq_getElem long
  rw [List.getElem_take, List.getElem_map, List.getElem_range, slot i _ here,
    slotClaim_claimSlot (ranges _ (List.getElem_mem long))]

theorem stateBytes_length {f : StateFrame} (few : f.claims.length ≤ 4) : (stateBytes f).length = 39 := by
  obtain ⟨front, length, bytes⟩ := stateBytes_split f
  rw [bytes]
  simp only [List.length_append, List.length_cons, length, flatMap_claimBytes_length, List.length_replicate]
  omega

theorem address_byteOf {n : Nat} (small : n < 32) : address (byteOf n) = n := cellOf_byteOf (Nat.le_of_lt_succ small)

/-- Settles O58: the frame's header, length and check word are those of a heard STATE frame, and its slots read back. -/
theorem sentStateFrameIsReceived : Obligations.SentStateFrameIsReceived := by
  intro n f small few ranges
  have size := stateBytes_length few
  have length : ([byteOf 30, byteOf n, 0x30, byteOf 39] ++ stateBytes f).length = 43 := by
    rw [List.length_append, size]
    rfl
  have bytes : frameBytes n (.state f) = withCheck ([byteOf 30, byteOf n, 0x30, byteOf 39] ++ stateBytes f) := by
    rw [← size]
    rfl
  have heard : frameHeard (frameBytes n (.state f)) = true := by
    have check := checkHolds_withCheck ([byteOf 30, byteOf n, 0x30, byteOf 39] ++ stateBytes f)
    have whole := withCheck_length ([byteOf 30, byteOf n, 0x30, byteOf 39] ++ stateBytes f)
    rw [length] at check whole
    rw [bytes]
    show (byteOf 39 == byteOf 39 && (withCheck _).length == 45 && checkHolds (withCheck _) 43) = true
    rw [check, whole]
    decide
  refine ⟨⟨byteOf 30, byteOf n⟩, statePayloadOf (stateBytes f ++ be2 (crc16 ([byteOf 30, byteOf n, 0x30, byteOf 39] ++ stateBytes f))),
    ?_, address_byteOf small, address_byteOf (by decide), payloadClaims_stateBytes few ranges _, rfl⟩
  rw [receive, if_pos heard, bytes]
  rfl

end Sys2Proof.Machine
end

section
/-! The configuration check, test by test on the image's bytes (R177, R188, chapter 12.5). -/
namespace Sys2Proof.Machine

theorem checkConfiguration_isSome (number : Nat) (image : List Byte) :
    (checkConfiguration number image).isSome = true ↔
      isPedestal number = true ∧ image.length = 105 ∧ checkHolds image 103 = true ∧ imageCodesValid image = true ∧
        valuesInRange (imageValues image) = true := by
  unfold checkConfiguration
  split
  · rename_i passes
    simpa [imageLength, and_assoc] using passes
  · rename_i fails
    simpa [imageLength, and_assoc] using fails

theorem claimWaitOf_isSome (b : Byte) : (claimWaitOf b).isSome = true ↔ b.toNat ≤ 4 := by
  by_cases known : b.toNat ≤ 4
  · interval_cases value : b.toNat <;> simp [claimWaitOf, value]
  · unfold claimWaitOf
    split
    case h_6 => simp [known]
    all_goals omega

theorem severityCode_eq (b : Byte) : severityCode b = b.toNat % 4 := by
  simp [severityCode]

/-- The codes of the image are valid exactly when the claim wait byte and the seven settings bytes name known ones. -/
theorem imageCodesValid_iff (image : List Byte) :
    imageCodesValid image = true ↔
      (byteAt image 91).toNat ≤ 4 ∧ ∀ i, i < 7 → (byteAt image (95 + i)).toNat % 4 ≤ 1 := by
  have classes : (∀ i, i < 7 → (byteAt image (95 + i)).toNat % 4 ≤ 1) ↔
      ∀ c ∈ FaultClass.all, ∀ o, classOffset c = some o → severityCode (byteAt image o) ≤ 1 := by
    simp only [severityCode_eq]
    constructor
    · intro all c _ o offset
      cases c <;> simp only [classOffset, Option.some.injEq, reduceCtorEq] at offset <;> subst offset
      · exact all 0 (by omega)
      · exact all 1 (by omega)
      · exact all 2 (by omega)
      · exact all 3 (by omega)
      · exact all 4 (by omega)
      · exact all 5 (by omega)
      · exact all 6 (by omega)
    · intro all i small
      have here : ∀ c : FaultClass, ∀ o, classOffset c = some o → (byteAt image o).toNat % 4 ≤ 1 := fun c o offset =>
        all c (FaultClass.mem_all c) o offset
      interval_cases i
      · exact here .followingError 95 rfl
      · exact here .axisLimit 96 rfl
      · exact here .floorOverlap 97 rfl
      · exact here .peerLost 98 rfl
      · exact here .tallyLost 99 rfl
      · exact here .busContention 100 rfl
      · exact here .storeCorrupt 101 rfl
  rw [imageCodesValid, Bool.and_eq_true, claimWaitOf_isSome, classes, List.all_eq_true]
  refine and_congr_right fun _ => forall₂_congr fun c _ => ?_
  cases classOffset c <;> simp

/-- The limits of an axis block are valid exactly when its fields are in range. -/
theorem axisLimitsValid_iff (image : List Byte) (a : Axis) :
    axisLimitsValid a (axisBlock image a) = true ↔
      (word3 image (12 * a.index)).toNat ≤ (word3 image (12 * a.index + 3)).toNat ∧
        (a = .x ∨ a = .y → (word3 image (12 * a.index + 3)).toNat ≤ 7999) ∧
        1 ≤ (word2 image (12 * a.index + 6)).toNat ∧ 1 ≤ (word2 image (12 * a.index + 8)).toNat ∧
        1 ≤ (word2 image (12 * a.index + 10)).toNat := by
  have floor : ((a != .x && a != .y) || decide ((axisBlock image a).softMax.toNat ≤ 7999)) = true ↔
      (a = .x ∨ a = .y → (word3 image (12 * a.index + 3)).toNat ≤ 7999) := by
    rw [Bool.or_eq_true, decide_eq_true_iff, ← imp_iff_not_or.trans (or_congr_left (show
      ¬(a = .x ∨ a = .y) ↔ (a != .x && a != .y) = true by cases a <;> decide))]
    rfl
  simp only [axisLimitsValid, Bool.and_eq_true, floor, decide_eq_true_eq, and_assoc]
  rfl

theorem valuesInRange_iff (image : List Byte) :
    valuesInRange (imageValues image) = true ↔
      (∀ a : Axis,
        (word3 image (12 * a.index)).toNat ≤ (word3 image (12 * a.index + 3)).toNat ∧
        (a = .x ∨ a = .y → (word3 image (12 * a.index + 3)).toNat ≤ 7999) ∧
        1 ≤ (word2 image (12 * a.index + 6)).toNat ∧ 1 ≤ (word2 image (12 * a.index + 8)).toNat ∧
        1 ≤ (word2 image (12 * a.index + 10)).toNat) ∧
      (100 ≤ (word2 image 84).toNat ∧ (word2 image 84).toNat ≤ 600) ∧
      (16 ≤ (word2 image 86).toNat ∧ (word2 image 86).toNat ≤ 256) ∧
      (1 ≤ (byteAt image 88).toNat ∧ (byteAt image 88).toNat ≤ 64) ∧
      (1 ≤ (byteAt image 89).toNat ∧ (byteAt image 89).toNat ≤ 128) ∧
      (100 ≤ (word2 image 92).toNat ∧ (word2 image 92).toNat ≤ 5000 ∧ (word2 image 92).toNat % 100 = 0) ∧
      (5 ≤ (byteAt image 94).toNat ∧ (byteAt image 94).toNat ≤ 50) := by
  have axes : (Axis.all.all fun a => axisLimitsValid a ((imageValues image).axes.get a)) = true ↔
      ∀ a : Axis, axisLimitsValid a (axisBlock image a) = true := by
    simp only [imageValues, PerAxis.get_ofFn, List.all_eq_true]
    exact ⟨fun all a => all a (Axis.mem_all a), fun all a _ => all a⟩
  have window : (imageValues image).blanking ≤ 255 := Nat.le_of_lt_succ (byteAt image 90).isLt
  simp only [valuesInRange, Bool.and_eq_true, axes, axisLimitsValid_iff, decide_eq_true_eq, window, and_true, and_assoc]
  rfl

/-- Settles O6: the check is the conjunction of its tests, each read off the bytes. -/
theorem configurationValidExactlyByTests : Obligations.ConfigurationValidExactlyByTests := by
  intro number image
  rw [checkConfiguration_isSome, imageCodesValid_iff, valuesInRange_iff, checkHolds, beq_iff_eq]
  have pedestal : isPedestal number = true ↔ 1 ≤ number ∧ number ≤ 16 := by simp [isPedestal]
  rw [pedestal]
  constructor
  · rintro ⟨own, length, check, ⟨wait, codes⟩, axes, width, rate, step, stop, group, delay⟩
    exact ⟨own, length, check, axes, width, rate, step, stop, wait, group, delay, codes⟩
  · rintro ⟨own, length, check, axes, width, rate, step, stop, wait, group, delay, codes⟩
    exact ⟨own, length, check, ⟨wait, codes⟩, axes, width, rate, step, stop, group, delay⟩

end Sys2Proof.Machine
end

section
/-! A run of raises of one class (R164, R165), and the start-up check (R29, R175). -/
namespace Sys2Proof.Machine

/-! ### A run of raises that only set flags -/

/-- The class raised once for each name. -/
def raiseEach (c : FaultClass) (names : List FaultName) (s : State) : State := names.foldl (fun t n => raise c n t) s

theorem flagsAfterRaises_succ (n : Nat) (f : FaultFlags) :
    flagsAfterRaises (n + 1) f = flagsAfterRaises n ⟨true, f.sticky⟩ := by
  rcases n with _ | n <;> simp [flagsAfterRaises]

/-- A run of raises changes the flags when its first raise or what follows does. -/
theorem flagsAfterRaises_changes (n : Nat) (f : FaultFlags) :
    decide (flagsAfterRaises (n + 1) f ≠ f) =
      (decide (flagsAfterRaise f ≠ f) || decide (flagsAfterRaises n ⟨true, f.sticky⟩ ≠ ⟨true, f.sticky⟩)) := by
  obtain ⟨sticky, recur⟩ := f
  rw [flagsAfterRaises_succ, flagsAfterRaise_eq]
  rcases n with _ | n <;> cases sticky <;> cases recur <;> simp [flagsAfterRaises]

theorem faults_set_set (p : PerClass FaultFlags) (c : FaultClass) (v w : FaultFlags) : (p.set c v).set c w = p.set c w :=
  PerClass.ext_get fun d => by
    rw [PerClass.get_set, PerClass.get_set, PerClass.get_set]
    split <;> rfl

theorem faults_set_get (p : PerClass FaultFlags) (c : FaultClass) : p.set c (p.get c) = p :=
  PerClass.ext_get fun d => by
    rw [PerClass.get_set]
    split
    · rename_i same
      rw [same]
    · rfl

/-- What a run of raises that only set flags leaves of the bus interface. -/
structure RaisesTold (c : FaultClass) (names : List FaultName) (s : State) (b : BusInterface) : Prop where
  ready : b.readyFifo = s.bus.readyFifo
  sent : b.transmission.map Transmission.frame = s.bus.transmission.map Transmission.frame
  marker : b.stateMarker = (s.bus.stateMarker ||
    (onBus s && decide (flagsAfterRaises names.length (s.faults.get c) ≠ s.faults.get c)))
  reports : s.bus.reportFifo.length < 8 ∨ firstReport s c names = [] → b.reportFifo = s.bus.reportFifo ++ firstReport s c names

/-- What one raise adds to the reports is what a run that begins with it adds. -/
theorem busAfterRaise_firstReport {c : FaultClass} {n : FaultName} {names : List FaultName} {s : State}
    (room : s.bus.reportFifo.length < 8 ∨ firstReport s c (n :: names) = []) :
    (busAfterRaise c n s).reportFifo = s.bus.reportFifo ++ firstReport s c (n :: names) := by
  by_cases quiet : ((s.faults.get c).sticky || (settingOf s c).masked) = true
  · rw [busAfterRaise, if_pos quiet, firstReport, if_pos quiet, List.append_nil]
  · rw [busAfterRaise, if_neg quiet, firstReport, if_neg quiet]
    exact busAfterReport_room (room.resolve_right (by simp [firstReport, quiet]))

/-- A run of raises of a class that does not stop the station. -/
theorem raiseEach_flagged {c : FaultClass} (names : List FaultName) : ∀ {s : State},
    s.control.station ≠ .active ∨ isStop s c = false →
    ∃ b, raiseEach c names s =
        { s with faults := s.faults.set c (flagsAfterRaises names.length (s.faults.get c)), bus := b } ∧
      RaisesTold c names s b := by
  induction names with
  | nil =>
    intro s _
    refine ⟨s.bus, ?_, rfl, rfl, by simp [flagsAfterRaises], fun _ => by simp [firstReport]⟩
    show s = { s with faults := s.faults.set c (s.faults.get c), bus := s.bus }
    rw [faults_set_get]
  | cons n names ih =>
    intro s only
    have first := raise_flagged n only
    let u : State := { s with faults := s.faults.set c ⟨true, (s.faults.get c).sticky⟩, bus := busAfterRaise c n s }
    have flags : u.faults.get c = ⟨true, (s.faults.get c).sticky⟩ := by simp [u, PerClass.get_set]
    obtain ⟨b, rest, told⟩ := ih (s := u) only
    have bus : u.bus = busAfterRaise c n s := rfl
    refine ⟨b, ?_, told.ready.trans (busAfterRaise_readyFifo c n s), told.sent.trans (busAfterRaise_transmission c n s), ?_,
      fun room => ?_⟩
    · have step : raiseEach c (n :: names) s = raiseEach c names u := congrArg (raiseEach c names) first
      rw [step, rest, flags, List.length_cons, flagsAfterRaises_succ]
      exact congrArg (fun f => ({ s with faults := f, bus := b } : State)) (faults_set_set s.faults c _ _)
    · have on : onBus u = onBus s := rfl
      rw [told.marker, flags, on, bus, busAfterRaise_stateMarker, List.length_cons, flagsAfterRaises_changes, Bool.or_assoc,
        ← Bool.and_or_distrib_left]
    · have later : firstReport u c names = [] := by simp [firstReport, flags]
      rw [told.reports (.inr later), later, List.append_nil, bus, busAfterRaise_firstReport room]

/-! ### The start-up check (R29) -/

theorem areaPasses_eq (areas : List (Nat × List Byte)) (n : Nat) : areaPasses areas n = areaSound (areaOf areas n) := by
  unfold areaPasses areaOf
  split
  · rename_i none
    rw [none]
    exact emptyArea_sound.symm
  · rename_i area some
    rw [some]
    rfl

theorem mem_failingRecords {areas : List (Nat × List Byte)} {n : Nat} :
    n ∈ failingRecords areas ↔ n ≤ 127 ∧ areaSound (areaOf areas n) = false := by
  simp [failingRecords, areaPasses_eq, lastShot, Nat.lt_succ_iff]

/-- Settles O7: the check's raises only set flags while the station is OFFLINE. -/
theorem startUpCheckMarksDamagedRecords : Obligations.StartUpCheckMarksDamagedRecords := by
  intro s checking offline
  let v : State := { s with store := { s.store with corrupt := failingRecords s.store.areas } }
  have names : checkedStore s = raiseEach .storeCorrupt ((failingRecords s.store.areas).map .shot) v :=
    (List.foldl_map (f := FaultName.shot) (g := fun t n => raise .storeCorrupt n t)).symm
  obtain ⟨b, raised, told⟩ := raiseEach_flagged (c := .storeCorrupt) ((failingRecords s.store.areas).map .shot) (s := v)
    (.inl (by simp [v, offline]))
  rw [← names, List.length_map] at raised
  refine ⟨_, congrArg Host.Outcome.next (if_pos checking), ?_⟩
  have marked : (checkedStore s).store.corrupt = failingRecords s.store.areas := by rw [raised]
  have flags : (checkedStore s).faults.get .storeCorrupt =
      flagsAfterRaises (failingRecords s.store.areas).length (s.faults.get .storeCorrupt) := by
    rw [raised, PerClass.get_set, if_pos rfl]
  refine ⟨fun n => ?_, ?_, ?_, ?_, ?_, fun c other => ?_, ?_, fun clear => ?_, fun clear unmasked empty => ?_⟩
  · show n ∈ (checkedStore s).store.corrupt ↔ _
    rw [marked]
    exact mem_failingRecords
  · show (checkedStore s).store.areas = _
    rw [raised]
  · show { (checkedStore s).control with phase := .hearing } = _
    rw [raised]
  · show { (checkedStore s).tally with timer := true } = _
    rw [raised]
  · show { (checkedStore s).port with requests := requestAll .read } = _
    rw [raised]
    rfl
  · show (checkedStore s).faults.get c = _
    rw [raised, PerClass.get_set, if_neg other]
  · show ((checkedStore s).faults.get .storeCorrupt).sticky = (_ || decide (1 ≤ (checkedStore s).store.corrupt.length))
    rw [flags, marked, flagsAfterRaises]
    split
    · rename_i zero
      simp [zero]
    · rename_i some
      simp [Nat.one_le_iff_ne_zero.mpr some]
  · show ((checkedStore s).faults.get .storeCorrupt).recur = decide (2 ≤ (checkedStore s).store.corrupt.length)
    rw [flags, marked, clear, flagsAfterRaises]
    split
    · rename_i zero
      simp [zero]
    · rfl
  · show (checkedStore s).bus.reportFifo = ((checkedStore s).store.corrupt.take 1).map _
    have room : v.bus.reportFifo.length < 8 := by simp [v, empty]
    have reports := told.reports (.inl room)
    have first : firstReport v .storeCorrupt ((failingRecords s.store.areas).map .shot) =
        ((failingRecords s.store.areas).take 1).map fun n => Report.fault .storeCorrupt (.shot n) := by
      have masks : (settingOf v .storeCorrupt).masked = false := unmasked
      have flags : (v.faults.get .storeCorrupt).sticky = false := congrArg FaultFlags.sticky clear
      rw [firstReport, masks, flags, if_neg (by simp), ← List.map_take, List.map_map]
      rfl
    rw [marked, ← first, raised]
    exact reports.trans (by simp [v, empty])

end Sys2Proof.Machine
end

section
/-! The setpoints of a plan as built: from start to target, between them at every time (R60, R65 to R67). -/
namespace Sys2Proof.Machine

/-! ### The profile (R66) -/

theorem profileNum_zero (m : Nat) : profileNum m 0 = 0 := by simp [profileNum]

theorem profileNum_end {m : Nat} (long : 0 < m) : profileNum m m = 6 * m * m := by
  rw [profileNum, if_neg (by omega), if_neg (by omega), Nat.sub_self]
  simp

theorem profileNum_le {m u : Nat} (within : u ≤ m) : profileNum m u ≤ 6 * m * m := by
  unfold profileNum
  split
  · rename_i first
    nlinarith
  · split
    · rename_i middle
      have : 8 * u * m ≤ 6 * m * m := by nlinarith
      omega
    · exact Nat.sub_le _ _

theorem profileOffset_zero (d : Nat) {m : Nat} (long : 0 < m) : profileOffset d m 0 = 0 := by
  have pos : 0 < 6 * m * m := by positivity
  rw [profileOffset, profileNum_zero]
  exact Nat.div_eq_of_lt (by omega)

theorem profileOffset_end (d : Nat) {m : Nat} (long : 0 < m) : profileOffset d m m = d := by
  have pos : 0 < 6 * m * m := by positivity
  rw [profileOffset, profileNum_end long]
  generalize 6 * m * m = k at pos
  have split : 2 * d * k + k = k + d * (2 * k) := by ring
  rw [split, Nat.add_mul_div_right _ _ (by omega), Nat.div_eq_of_lt (by omega), Nat.zero_add]

theorem profileOffset_le (d : Nat) {m u : Nat} (long : 0 < m) (within : u ≤ m) : profileOffset d m u ≤ d := by
  have pos : 0 < 6 * m * m := by positivity
  have num := profileNum_le within
  rw [profileOffset]
  generalize 6 * m * m = k at *
  have bound : 2 * d * profileNum m u ≤ 2 * d * k := Nat.mul_le_mul_left _ num
  refine Nat.le_of_lt_succ ((Nat.div_lt_iff_lt_mul (by omega)).mpr ?_)
  nlinarith

/-! ### The setpoint of an axis that moves (R65) -/

/-- The segment of an axis: its duration, and the elapsed time at each profile time up to the move's end. -/
structure SegmentRuns (p : RunningPlan) (a : Axis) (m : Nat) (elapsed : Nat → Nat) : Prop where
  segment : ∀ t, segmentOf p a t = some (m, elapsed t)
  long : 0 < m
  start : elapsed 0 = 0
  stop : elapsed (moveEnd p) = m
  within : ∀ t, t ≤ moveEnd p → elapsed t ≤ m

theorem setpointAt_still {p : RunningPlan} {a : Axis} (still : p.plan.distance.get a = 0) (t : Nat) :
    setpointAt p t a = p.plan.start.get a := by
  simp [setpointAt, still]

/-- A plan's distance and direction of an axis are those from its start to its target (R53). -/
def LeadsToTarget (p : Plan) (a : Axis) : Prop :=
  p.distance.get a = distanceOf (p.start.get a) (p.target.get a) ∧
    p.direction.get a = directionOf (p.start.get a) (p.target.get a)

theorem setpointAt_up {p : RunningPlan} {a : Axis} {m : Nat} {elapsed : Nat → Nat} (runs : SegmentRuns p a m elapsed)
    (leads : LeadsToTarget p.plan a) (up : (p.plan.start.get a).toNat < (p.plan.target.get a).toNat) {t : Nat}
    (within : t ≤ moveEnd p) :
    (setpointAt p t a).toNat = (p.plan.start.get a).toNat +
      profileOffset ((p.plan.target.get a).toNat - (p.plan.start.get a).toNat) m (elapsed t) := by
  obtain ⟨distance, direction⟩ := leads
  have d : p.plan.distance.get a = (p.plan.target.get a).toNat - (p.plan.start.get a).toNat := by
    rw [distance, distanceOf]
    omega
  have dir : p.plan.direction.get a = .up := by rw [direction, directionOf, if_pos up]
  have bound := profileOffset_le ((p.plan.target.get a).toNat - (p.plan.start.get a).toNat) runs.long (runs.within t within)
  have top := (p.plan.target.get a).isLt
  simp only [setpointAt, runs.segment, dir, d, if_neg (show ¬(p.plan.target.get a).toNat - (p.plan.start.get a).toNat = 0 by omega),
    if_neg (show ¬m = 0 from runs.long.ne'), BitVec.toNat_ofNat]
  exact Nat.mod_eq_of_lt (by omega)

theorem setpointAt_down {p : RunningPlan} {a : Axis} {m : Nat} {elapsed : Nat → Nat} (runs : SegmentRuns p a m elapsed)
    (leads : LeadsToTarget p.plan a) (down : (p.plan.target.get a).toNat < (p.plan.start.get a).toNat) (t : Nat) :
    (setpointAt p t a).toNat = (p.plan.start.get a).toNat -
      profileOffset ((p.plan.start.get a).toNat - (p.plan.target.get a).toNat) m (elapsed t) := by
  obtain ⟨distance, direction⟩ := leads
  have d : p.plan.distance.get a = (p.plan.start.get a).toNat - (p.plan.target.get a).toNat := by
    rw [distance, distanceOf]
    omega
  have dir : p.plan.direction.get a = .down := by rw [direction, directionOf, if_neg (by omega), if_pos down]
  have top := (p.plan.start.get a).isLt
  simp only [setpointAt, runs.segment, dir, d, if_neg (show ¬(p.plan.start.get a).toNat - (p.plan.target.get a).toNat = 0 by omega),
    if_neg (show ¬m = 0 from runs.long.ne'), BitVec.toNat_ofNat]
  exact Nat.mod_eq_of_lt (by omega)

/-- The setpoints of an axis along its segment: the start, the target, and between them (R67). -/
theorem setpointAt_runs {p : RunningPlan} {a : Axis} {m : Nat} {elapsed : Nat → Nat} (runs : SegmentRuns p a m elapsed)
    (leads : LeadsToTarget p.plan a) (moves : (p.plan.start.get a).toNat ≠ (p.plan.target.get a).toNat) :
    setpointAt p 0 a = p.plan.start.get a ∧ setpointAt p (moveEnd p) a = p.plan.target.get a ∧
      ∀ t, t ≤ moveEnd p →
        min (p.plan.start.get a).toNat (p.plan.target.get a).toNat ≤ (setpointAt p t a).toNat ∧
        (setpointAt p t a).toNat ≤ max (p.plan.start.get a).toNat (p.plan.target.get a).toNat := by
  rcases Nat.lt_or_gt_of_ne moves with up | down
  · refine ⟨BitVec.eq_of_toNat_eq ?_, BitVec.eq_of_toNat_eq ?_, fun t within => ?_⟩
    · rw [setpointAt_up runs leads up (Nat.zero_le _), runs.start, profileOffset_zero _ runs.long, Nat.add_zero]
    · rw [setpointAt_up runs leads up le_rfl, runs.stop, profileOffset_end _ runs.long]
      omega
    · have bound := profileOffset_le ((p.plan.target.get a).toNat - (p.plan.start.get a).toNat) runs.long (runs.within t within)
      rw [setpointAt_up runs leads up within]
      omega
  · refine ⟨BitVec.eq_of_toNat_eq ?_, BitVec.eq_of_toNat_eq ?_, fun t within => ?_⟩
    · rw [setpointAt_down runs leads down, runs.start, profileOffset_zero _ runs.long, Nat.sub_zero]
    · rw [setpointAt_down runs leads down, runs.stop, profileOffset_end _ runs.long]
      omega
    · have bound := profileOffset_le ((p.plan.start.get a).toNat - (p.plan.target.get a).toNat) runs.long (runs.within t within)
      rw [setpointAt_down runs leads down]
      omega

/-! ### The route of a plan as built (R56, R60) -/

/-- The legs of a candidate: one for each floor axis that moves. -/
theorem mem_candidateLegs {w : Nat} {hint : RouteHint} {a b : Point} {tx ty : Nat} {legs : List Leg}
    (member : legs ∈ candidateLegs w hint a b tx ty) :
    (a.x = b.x ∧ a.y = b.y ∧ legs = []) ∨
      (a.x = b.x ∧ a.y ≠ b.y ∧ ∃ l, legs = [l] ∧ l.axis = .y) ∨
      (a.x ≠ b.x ∧ a.y = b.y ∧ ∃ l, legs = [l] ∧ l.axis = .x) ∨
      (a.x ≠ b.x ∧ a.y ≠ b.y ∧ ∃ l k, legs = [l, k] ∧
        ((l.axis = .x ∧ l.duration = tx ∧ k.axis = .y ∧ k.duration = ty) ∨
          (l.axis = .y ∧ l.duration = ty ∧ k.axis = .x ∧ k.duration = tx))) := by
  unfold candidateLegs at member
  dsimp only at member
  by_cases x : a.x = b.x
  · by_cases y : a.y = b.y
    · rw [if_pos x, if_pos y] at member
      exact .inl ⟨x, y, by simpa using member⟩
    · rw [if_pos x, if_neg y] at member
      exact .inr (.inl ⟨x, y, _, List.mem_singleton.mp member, rfl⟩)
  · by_cases y : a.y = b.y
    · rw [if_neg x, if_pos y] at member
      exact .inr (.inr (.inl ⟨x, y, _, List.mem_singleton.mp member, rfl⟩))
    · rw [if_neg x, if_neg y] at member
      refine .inr (.inr (.inr ⟨x, y, ?_⟩))
      cases hint with
      | xFirst => exact ⟨_, _, List.mem_singleton.mp member, .inl ⟨rfl, rfl, rfl, rfl⟩⟩
      | yFirst => exact ⟨_, _, List.mem_singleton.mp member, .inr ⟨rfl, rfl, rfl, rfl⟩⟩
      | either =>
        rcases List.mem_pair.mp member with first | second
        · exact ⟨_, _, first, .inl ⟨rfl, rfl, rfl, rfl⟩⟩
        · exact ⟨_, _, second, .inr ⟨rfl, rfl, rfl, rfl⟩⟩

/-- The split of a move over two legs: both parts last, and they sum to N (R60). -/
theorem splitRoute_two {n : Nat} {l k : Leg} (first : 1 ≤ l.duration) (second : 1 ≤ k.duration)
    (long : l.duration + k.duration ≤ n) :
    1 ≤ (splitRoute n [l, k]).n1 ∧ (splitRoute n [l, k]).n1 < n ∧
      (splitRoute n [l, k]).n2 = n - (splitRoute n [l, k]).n1 := by
  have floor : floorDuration [l, k] = l.duration + k.duration := by simp [floorDuration]
  have pos : 0 < l.duration + k.duration := by omega
  refine ⟨?_, ?_, rfl⟩
  · show 1 ≤ l.duration * n / floorDuration [l, k]
    rw [floor, Nat.le_div_iff_mul_le pos]
    nlinarith
  · show l.duration * n / floorDuration [l, k] < n
    rw [floor, Nat.div_lt_iff_lt_mul pos]
    nlinarith

/-! ### The segments of a running plan (R65) -/

section
variable {p : RunningPlan} {a : Axis}

theorem segmentRuns_head (head : ¬(a = .x ∨ a = .y)) (long : 1 ≤ p.duration) : SegmentRuns p a (moveEnd p) id :=
  ⟨fun _ => if_neg head, by simp only [moveEnd]; omega, rfl, rfl, fun _ => id⟩

theorem segmentRuns_first {l : Leg} {rest : List Leg} (floor : a = .x ∨ a = .y) (legs : p.route.legs = l :: rest)
    (axis : l.axis = a) (long : 1 ≤ p.route.n1) (within : p.route.n1 ≤ p.duration) :
    SegmentRuns p a (leg1End p) fun t => min t (leg1End p) := by
  refine ⟨fun t => ?_, by simp only [leg1End]; omega, by simp, ?_, fun t _ => min_le_right _ _⟩
  · simp only [segmentOf, if_pos floor, legs, if_pos axis]
  · simp only [moveEnd, leg1End]
    omega

theorem segmentRuns_second {l k : Leg} (floor : a = .x ∨ a = .y) (legs : p.route.legs = [l, k]) (other : l.axis ≠ a)
    (axis : k.axis = a) (within : p.route.n1 < p.duration) :
    SegmentRuns p a (moveEnd p - leg1End p) fun t => t - leg1End p := by
  refine ⟨fun t => ?_, by simp only [moveEnd, leg1End]; omega, Nat.zero_sub _, rfl, fun t before => ?_⟩
  · simp only [segmentOf, if_pos floor, legs, if_neg other]
    simp [axis]
  · exact Nat.sub_le_sub_right before _

end

/-! ### The durations of a plan as built (R54, R58, R59) -/

theorem minDuration_pos {d : Nat} {l : AxisLimits} (speed : 1 ≤ l.speed) (moves : 1 ≤ d) : 1 ≤ minDuration d l := by
  rw [minDuration_of_pos l moves]
  exact (speedDuration_pos speed moves).trans (le_max_left _ _)

theorem distanceOf_pos {s t : Position} : s.toNat ≠ t.toNat ↔ 1 ≤ distanceOf s t := by
  unfold distanceOf
  omega

theorem moveDuration_floor (tFloor : Nat) (durations : PerAxis Nat) (time : Option (BitVec 16)) :
    tFloor ≤ moveDuration tFloor durations time :=
  (le_max_left _ _).trans (le_max_left _ _)

theorem moveDuration_head (tFloor : Nat) (durations : PerAxis Nat) (time : Option (BitVec 16)) {a : Axis}
    (head : a ∈ headAxes) : durations.get a ≤ moveDuration tFloor durations time :=
  ((le_foldl_max _ 0).2 _ (List.mem_map_of_mem head)).trans ((le_max_right _ _).trans (le_max_left _ _))

section
variable {cfg : Configuration} {starts : PerAxis Position} {c : ShotContent}

theorem buildPlan_leads (a : Axis) : LeadsToTarget (buildPlan cfg starts c) a :=
  ⟨PerAxis.get_ofFn _ a, PerAxis.get_ofFn _ a⟩

/-- The duration of an axis in a plan as built. -/
theorem buildPlan_axisDuration (a : Axis) : (buildPlan cfg starts c).axisDuration.get a =
    minDuration (distanceOf (starts.get a) ((buildPlan cfg starts c).target.get a)) (cfg.axes.get a) :=
  (PerAxis.get_ofFn _ a).trans (congrArg (minDuration · _) (PerAxis.get_ofFn _ a))

theorem buildPlan_axisDuration_pos (sane : ∀ a, 1 ≤ (cfg.axes.get a).speed) {a : Axis}
    (moves : (starts.get a).toNat ≠ ((buildPlan cfg starts c).target.get a).toNat) :
    1 ≤ (buildPlan cfg starts c).axisDuration.get a := by
  rw [buildPlan_axisDuration]
  exact minDuration_pos (sane a) (distanceOf_pos.mp moves)

theorem buildPlan_duration_floor :
    (buildPlan cfg starts c).axisDuration.get .x + (buildPlan cfg starts c).axisDuration.get .y ≤
      (buildPlan cfg starts c).duration := moveDuration_floor _ _ _

theorem buildPlan_duration (a : Axis) : (buildPlan cfg starts c).axisDuration.get a ≤ (buildPlan cfg starts c).duration := by
  have floor := buildPlan_duration_floor (cfg := cfg) (starts := starts) (c := c)
  have head : ∀ b ∈ headAxes, (buildPlan cfg starts c).axisDuration.get b ≤ (buildPlan cfg starts c).duration :=
    fun b mem => moveDuration_head _ _ _ mem
  cases a with
  | x => omega
  | y => omega
  | elevation | pan | tilt | zoom | focus => exact head _ (by simp [headAxes])

/-- The candidates of a plan as built, by the floor axes that move. -/
theorem buildPlan_route {r : Route} (member : r ∈ (buildPlan cfg starts c).candidates) :
    ∃ legs, r = splitRoute (buildPlan cfg starts c).duration legs ∧
      legs ∈ candidateLegs cfg.halfWidth c.routeHint (floorPoint starts) (floorPoint (buildPlan cfg starts c).target)
        ((buildPlan cfg starts c).axisDuration.get .x) ((buildPlan cfg starts c).axisDuration.get .y) := by
  obtain ⟨legs, candidate, same⟩ := List.mem_map.mp member
  exact ⟨legs, same.symm, candidate⟩

end

/-- The route of a candidate of a plan as built, by the floor axes that move: how many legs, and how they share N. -/
inductive RouteShape (starts target : PerAxis Position) (n : Nat) (r : Route) : Prop where
  | none (x : starts.x.toNat = target.x.toNat) (y : starts.y.toNat = target.y.toNat) (legs : r.legs = [])
  | one (l : Leg) (legs : r.legs = [l]) (n1 : r.n1 = n) (n2 : r.n2 = 0)
      (axis : ∀ a : Axis, a = .x ∨ a = .y → (starts.get a).toNat ≠ (target.get a).toNat → l.axis = a)
  | two (l k : Leg) (legs : r.legs = [l, k]) (first : 1 ≤ r.n1) (less : r.n1 < n) (rest : r.n2 = n - r.n1)
      (axes : (l.axis = .x ∧ k.axis = .y) ∨ (l.axis = .y ∧ k.axis = .x))

/-- The shape holds for every duration from the own N on: a group's common N splits the legs anew (R60, R64). -/
theorem candidateLegs_shape {cfg : Configuration} {starts : PerAxis Position} {c : ShotContent} {legs : List Leg} {n : Nat}
    (sane : ∀ a, 1 ≤ (cfg.axes.get a).speed)
    (candidate : legs ∈ candidateLegs cfg.halfWidth c.routeHint (floorPoint starts)
      (floorPoint (buildPlan cfg starts c).target) ((buildPlan cfg starts c).axisDuration.get .x)
      ((buildPlan cfg starts c).axisDuration.get .y))
    (long : (buildPlan cfg starts c).duration ≤ n) :
    RouteShape starts (buildPlan cfg starts c).target n (splitRoute n legs) := by
  have durations := buildPlan_duration_floor (cfg := cfg) (starts := starts) (c := c)
  rcases mem_candidateLegs candidate with ⟨x, y, rfl⟩ | ⟨x, y, l, rfl, axis⟩ | ⟨x, y, l, rfl, axis⟩ | ⟨x, y, l, k, rfl, axes⟩
  · exact .none x y rfl
  · refine .one l rfl rfl rfl fun a floor moves => ?_
    rcases floor with rfl | rfl
    · exact absurd x moves
    · exact axis
  · refine .one l rfl rfl rfl fun a floor moves => ?_
    rcases floor with rfl | rfl
    · exact axis
    · exact absurd y moves
  · have tx := buildPlan_axisDuration_pos sane (a := .x) x
    have ty := buildPlan_axisDuration_pos sane (a := .y) y
    have sum : 1 ≤ l.duration ∧ 1 ≤ k.duration ∧ l.duration + k.duration ≤ n := by
      rcases axes with ⟨_, first, _, second⟩ | ⟨_, first, _, second⟩ <;> omega
    obtain ⟨first, less, rest⟩ := splitRoute_two sum.1 sum.2.1 sum.2.2
    exact .two l k rfl first less rest (axes.imp (fun h => ⟨h.1, h.2.2.1⟩) fun h => ⟨h.1, h.2.2.1⟩)

theorem buildPlan_shape {cfg : Configuration} {starts : PerAxis Position} {c : ShotContent} {r : Route}
    (sane : ∀ a, 1 ≤ (cfg.axes.get a).speed) (member : r ∈ (buildPlan cfg starts c).candidates) :
    RouteShape starts (buildPlan cfg starts c).target (buildPlan cfg starts c).duration r := by
  obtain ⟨legs, rfl, candidate⟩ := buildPlan_route member
  exact candidateLegs_shape sane candidate le_rfl

theorem RouteShape.sum {starts target : PerAxis Position} {n : Nat} {r : Route} (shape : RouteShape starts target n r)
    (some : r.legs ≠ []) : r.n1 + r.n2 = n := by
  cases shape with
  | none _ _ legs => exact absurd legs some
  | one _ _ n1 n2 => omega
  | two _ _ _ _ less rest => omega

/-- A floor axis that moves has a segment in the route. -/
theorem RouteShape.segment {starts target : PerAxis Position} {r : Route} {p : RunningPlan}
    (shape : RouteShape starts target p.duration r) (route : p.route = r) (long : 1 ≤ p.duration) {a : Axis}
    (floor : a = .x ∨ a = .y) (moves : (starts.get a).toNat ≠ (target.get a).toNat) :
    ∃ m elapsed, SegmentRuns p a m elapsed := by
  subst route
  cases shape with
  | none x y => rcases floor with rfl | rfl <;> contradiction
  | one l legs n1 _ axis => exact ⟨_, _, segmentRuns_first floor legs (axis a floor moves) (by omega) (by omega)⟩
  | two l k legs first less _ axes =>
    by_cases here : l.axis = a
    · exact ⟨_, _, segmentRuns_first floor legs here first less.le⟩
    · have later : k.axis = a := by
        rcases axes with ⟨lx, ky⟩ | ⟨ly, kx⟩ <;> rcases floor with rfl | rfl <;> simp_all
      exact ⟨_, _, segmentRuns_second floor legs here later less⟩

/-- The setpoints of a running plan: an axis that moves runs along its segment, and one that does not stands at its start. -/
theorem RouteShape.setpoints {run : RunningPlan} (shape : RouteShape run.plan.start run.plan.target run.duration run.route)
    (leads : ∀ a, LeadsToTarget run.plan a)
    (long : ∀ a, (run.plan.start.get a).toNat ≠ (run.plan.target.get a).toNat → 1 ≤ run.duration) (a : Axis) :
    setpointAt run 0 a = run.plan.start.get a ∧ setpointAt run (moveEnd run) a = run.plan.target.get a ∧
      ∀ t, t ≤ moveEnd run →
        min (run.plan.start.get a).toNat (run.plan.target.get a).toNat ≤ (setpointAt run t a).toNat ∧
        (setpointAt run t a).toNat ≤ max (run.plan.start.get a).toNat (run.plan.target.get a).toNat := by
  by_cases moves : (run.plan.start.get a).toNat ≠ (run.plan.target.get a).toNat
  · have runs : ∃ m elapsed, SegmentRuns run a m elapsed := by
      by_cases floor : a = .x ∨ a = .y
      · exact shape.segment rfl (long a moves) floor moves
      · exact ⟨_, _, segmentRuns_head floor (long a moves)⟩
    obtain ⟨m, elapsed, runs⟩ := runs
    exact setpointAt_runs runs (leads a) moves
  · have same : run.plan.start.get a = run.plan.target.get a := BitVec.eq_of_toNat_eq (not_not.mp moves)
    have still : ∀ t, setpointAt run t a = run.plan.start.get a := fun t => by
      refine setpointAt_still ((leads a).1.trans ?_) t
      rw [same, distanceOf]
      omega
    refine ⟨still 0, (still _).trans same, fun t _ => ?_⟩
    rw [still, same]
    exact ⟨min_le_left _ _, le_max_left _ _⟩

/-- Settles O60: the shape of the chosen route, and the setpoints of a running plan of that shape. -/
theorem setpointsRunFromStartToTarget : Obligations.SetpointsRunFromStartToTarget := by
  intro cfg starts c i r live sane plan candidate run
  have speed : ∀ a, 1 ≤ (cfg.axes.get a).speed := fun a => (sane a).1
  have shape : RouteShape starts plan.target plan.duration r := buildPlan_shape speed (List.mem_of_getElem? candidate)
  have route : run.route = r := by simp [run, runningPlanOf, chosenRoute, candidate]
  have setpoints := RouteShape.setpoints (run := run) (route ▸ shape) buildPlan_leads fun a moves =>
    (buildPlan_axisDuration_pos speed moves).trans (buildPlan_duration a)
  exact ⟨shape.sum, fun a => ⟨fun _ => (setpoints a).1, (setpoints a).2⟩⟩

end Sys2Proof.Machine
end

section
/-! A CUE read at once: its targets clamped, its plan built, its route chosen, its start tested (R15, R42 to R46, R61, R62). -/
namespace Sys2Proof.Machine

/-! ### AXIS_LIMIT raised for each clamped axis (R15) -/

theorem raisesTold_nil (c : FaultClass) (s : State) : RaisesTold c [] s s.bus :=
  ⟨rfl, rfl, by simp [flagsAfterRaises], fun _ => by simp [firstReport]⟩

/-- The state in which AXIS_LIMIT has been raised a number of times, the station not stopped. -/
def limitsRaised (n : Nat) (b : BusInterface) (s : State) : State :=
  { s with faults := s.faults.set .axisLimit (flagsAfterRaises n (s.faults.get .axisLimit)), bus := b }

theorem raiseLimits_mild {as : List Axis} : ∀ {s : State}, isStop s .axisLimit = false →
    raiseLimits as s = (raiseEach .axisLimit (as.map .axis) s, true) := by
  induction as with
  | nil => exact fun _ => rfl
  | cons a as ih =>
    intro s mild
    have flagged := raise_flagged (.axis a) (.inr mild)
    have rest := ih (s := raise .axisLimit (.axis a) s) (by rw [flagged]; exact mild)
    rw [raiseLimits, if_pos (by rw [flagged]), rest]
    rfl

/-- With no axis clamped, or at REPORT severity, the raises only set flags and the building goes on. -/
theorem raiseLimits_told {as : List Axis} {s : State} (mild : as = [] ∨ (settingOf s .axisLimit).severity = .report) :
    ∃ b, raiseLimits as s = (limitsRaised as.length b s, true) ∧ RaisesTold .axisLimit (as.map .axis) s b := by
  rcases mild with rfl | report
  · refine ⟨s.bus, ?_, raisesTold_nil _ s⟩
    have same : limitsRaised 0 s.bus s = s :=
      congrArg (fun f => ({ s with faults := f } : State)) (faults_set_get s.faults .axisLimit)
    rw [raiseLimits, List.length_nil, same]
  · have calm := isStop_of_report report
    obtain ⟨b, raised, told⟩ := raiseEach_flagged (as.map .axis) (.inr calm)
    refine ⟨b, ?_, told⟩
    rw [raiseLimits_mild calm, raised, List.length_map]
    rfl

/-- At STOP severity the first raise ends the building (R167). -/
theorem raiseLimits_stops {a : Axis} {as : List Axis} {s : State} (active : s.control.station = .active)
    (severe : isStop s .axisLimit = true) : raiseLimits (a :: as) s = (raise .axisLimit (.axis a) s, false) := by
  have stopped := (raise_stopped (.axis a) active severe).control
  rw [raiseLimits, if_neg]
  rw [stopped, active]
  simp

/-! ### The place that an entry is read in (R42, R46) -/

/-- An entry that joins the list is read at once: as the head, or behind a running head with no stop in progress. -/
inductive ReadPlace (before : List CueEntry) (starts : PerAxis Position) (kind : ClaimKind) (v : State) : Prop where
  | head (nothing : before = []) (from_ : starts = v.port.lastSetpoint) (is : kind = .leg)
  | second (d : CueEntry) (q : Plan) (one : before = [d]) (running : d.stage = .running) (plan : d.plan = some q)
      (moves : v.profile.motion ≠ .stopping) (from_ : starts = q.target) (is : kind = .nextLeg)

section
variable {before : List CueEntry} {starts : PerAxis Position} {kind : ClaimKind} {v : State} {f : CueEntry}
  (place : ReadPlace before starts kind v) (list : v.cues = before ++ [f])
include place

theorem ReadPlace.kindAt : kindAt before.length = kind := by
  cases place with
  | head nothing _ is => simp [Machine.kindAt, nothing, is]
  | second d q one _ _ _ _ is => simp [Machine.kindAt, one, is]

include list

theorem ReadPlace.planStarts : planStarts before.length v = starts := by
  cases place with
  | head nothing from_ => simp [Machine.planStarts, nothing, from_]
  | second d q one running plan moves from_ => simp [Machine.planStarts, one, list, plan, from_]

theorem ReadPlace.left {t : State} (queued : f.stage = .queued) (active : v.control.station = .active)
    (read : planAt before.length v = (t, .left)) (cues : t.cues = before) : refill before.length v = t := by
  cases place with
  | head nothing =>
    subst nothing
    exact takeUpHead_left list queued active read
  | second d q one running plan moves =>
    subst one
    have allowed : prePlanAllowed v = true := by
      simp [prePlanAllowed_eq (d := d) (f := f) (more := []) list, running, queued, moves, active]
    exact takeUpSecond_left (d := d) (f := f) (more := []) list allowed read (by simp [cues])

/-- A staged entry that does not start is settled: the head deferred and told, or left as it is. -/
theorem ReadPlace.staged {w : State} {e : CueEntry} (queued : f.stage = .queued) (active : v.control.station = .active)
    (read : planAt before.length v = (w, .staged)) (cues : w.cues = before ++ [e])
    (waits : before = [] → testHead w = (headSettled e [] (deferred e w) w, false)) :
    refill before.length v = headSettled e [] (decide (kind = .leg) && deferred e w) w := by
  cases place with
  | head nothing _ is =>
    subst nothing is
    exact takeUpHead_staged list queued active read (waits rfl)
  | second d q one running plan moves _ is =>
    subst one is
    have allowed : prePlanAllowed v = true := by
      simp [prePlanAllowed_eq (d := d) (f := f) (more := []) list, running, queued, moves, active]
    exact takeUpSecond_read (d := d) (f := f) (more := []) list allowed read (by simp)

end

/-- What the settling of a staged entry makes of the staged state. -/
theorem headSettled_last {before : List CueEntry} {e : CueEntry} {defers : Bool} {w : State} (cues : w.cues = before ++ [e])
    (fresh : e.deferralReported = false) (head : defers = true → before = []) :
    headSettled e [] defers w = { w with
      cues := before ++ [{ e with deferralReported := defers }]
      bus := if defers then busAfterReport (.cue e.tag .deferred) w.bus else w.bus } := by
  cases defers with
  | false =>
    have same : ({ e with deferralReported := false } : CueEntry) = e := by rw [← fresh]
    rw [same, ← cues]
    rfl
  | true =>
    rw [head rfl, headSettled, if_pos rfl, deferralTold, fresh]
    rfl

/-! ### The entry read, planned and staged -/

section
variable {before : List CueEntry} {starts : PerAxis Position} {kind : ClaimKind} {v : State} {f : CueEntry} {c : ShotContent}
  (place : ReadPlace before starts kind v) (list : v.cues = before ++ [f]) (idle : writing v.store f.shot = false)
  (inside : f.shot ≤ 127) (valid : recordOf v.store f.shot = .valid c)
include place list idle inside valid

/-- The planning read of an entry whose raises, if any, only set flags. -/
theorem ReadPlace.planAt_mild (mild : limitAxes v starts c = [] ∨ (settingOf v .axisLimit).severity = .report) :
    ∃ b, RaisesTold .axisLimit ((limitAxes v starts c).map .axis) v b ∧
      planAt before.length v =
        if 65535 < (buildPlan (configOf v) starts c).duration then
          (without before [] (.failed .planRange) f false (limitsRaised (limitAxes v starts c).length b v), .left)
        else (enterRouting before.length c (buildPlan (configOf v) starts c) (limitsRaised (limitAxes v starts c).length b v),
          .staged) := by
  obtain ⟨b, raised, told⟩ := raiseLimits_told mild
  refine ⟨b, told, ?_⟩
  rw [planAt_valid list idle inside valid, place.planStarts list, raised]
  simp only [if_true]
  rw [removeAt_eq (s := limitsRaised (limitAxes v starts c).length b v) (before := before) (after := []) _ _ list]

/-- The planning read that a raise of STOP severity ends. -/
theorem ReadPlace.planAt_severe {a : Axis} {as : List Axis} (clamped : limitAxes v starts c = a :: as)
    (active : v.control.station = .active) (severe : isStop v .axisLimit = true) :
    planAt before.length v = (raise .axisLimit (.axis a) v, .stays) := by
  rw [planAt_valid list idle inside valid, place.planStarts list, clamped, raiseLimits_stops active severe]
  simp only [Bool.false_eq_true, if_false]

end

/-- A last entry of the list whose test starts nothing. -/
theorem testHead_last {w : State} {e : CueEntry} (cues : w.cues = [e])
    (waits : e.stage ≠ .claimed ∨ e.take = false ∨ deferred e w = true ∨
      (e.mode ≠ .group ∧ ¬(w.profile.motion = .idle ∧ w.control.restartPending = false))) :
    testHead w = (headSettled e [] (deferred e w) w, false) := by
  rcases waits with stage | untaken | defers | ⟨mode, busy⟩
  · exact testHead_settled cues (.inl stage)
  · exact testHead_settled cues (.inr (.inl untaken))
  · exact testHead_settled cues (.inr (.inr defers))
  · cases defers : deferred e w with
    | true => exact testHead_deferred cues defers
    | false => exact testHead_held cues defers mode fun ⟨_, rest⟩ => busy rest

/-! ### The overlap test after a completion at rest (R84, R85) -/

/-- What overlap tests of a machine at rest leave beside what `RestKept` names: the axis port, the READY FIFO, a set STATE
marker, and the flags of every class but FLOOR_OVERLAP. -/
structure FloorNoted (s t : State) : Prop where
  rest : RestKept s t
  port : t.port = s.port
  ready : t.bus.readyFifo = s.bus.readyFifo
  marker : s.bus.stateMarker = true → t.bus.stateMarker = true
  faults : ∀ c, c ≠ .floorOverlap → t.faults.get c = s.faults.get c

theorem FloorNoted.refl (s : State) : FloorNoted s s := ⟨.refl s, rfl, rfl, id, fun _ _ => rfl⟩

theorem FloorNoted.trans {s t u : State} (first : FloorNoted s t) (second : FloorNoted t u) : FloorNoted s u :=
  ⟨first.rest.trans second.rest, second.port.trans first.port, second.ready.trans first.ready,
    second.marker ∘ first.marker, fun c other => (second.faults c other).trans (first.faults c other)⟩

theorem floorNoted_setOverlap (l : List Nat) (s : State) : FloorNoted s (setOverlap l s) :=
  ⟨⟨rfl, rfl, rfl, rfl, rfl, ⟨[], List.append_nil _⟩⟩, rfl, rfl, id, fun _ _ => rfl⟩

theorem floorNoted_raiseFlags (n : FaultName) (s : State) : FloorNoted s (raiseFlags .floorOverlap n s) := by
  rw [raiseFlags_eq]
  exact ⟨⟨rfl, rfl, rfl, rfl, rfl, busAfterRaise_reports _ _ _⟩, rfl, busAfterRaise_readyFifo _ _ _,
    fun set => by simp [busAfterRaise_stateMarker, set], fun c other => by simp [other]⟩

section
variable {fault : FaultClass → FaultName → State → State}
  (quiet : ∀ n s, atRest s → FloorNoted s (fault .floorOverlap n s))
include quiet

theorem floorNoted_overlapTestBy (n : Nat) {s : State} (rest : atRest s) : FloorNoted s (overlapTestBy fault n s) := by
  have set := fun l => floorNoted_setOverlap l s
  unfold overlapTestBy
  split
  · exact .refl s
  · split
    · split
      · exact .refl s
      · exact (set _).trans (quiet _ _ ((set _).rest.rests rest))
    · exact set _

theorem floorNoted_overlapAfterBy (b : State) {s : State} (rest : atRest s) : FloorNoted s (overlapAfterBy fault b s) := by
  have all : ∀ (l : List Nat) {t : State}, atRest t → FloorNoted t (l.foldl (fun t n => overlapTestBy fault n t) t) := by
    intro l
    induction l with
    | nil => exact fun {t} _ => .refl t
    | cons n l ih =>
      intro t rest
      have one := floorNoted_overlapTestBy quiet n rest
      exact one.trans (ih (one.rest.rests rest))
  unfold overlapAfterBy
  split
  · exact .refl s
  · exact all _ rest

end

theorem floorNoted_enterFaultStop {s : State} (rest : atRest s) : FloorNoted s (enterFaultStop s) := by
  have stop := enterFaultStop_stopped s
  obtain ⟨empty, idle⟩ := rest
  have failed : failList (setFaultStop s) = setFaultStop s := by
    have still : headRunning (setFaultStop s) = false := by simp [headRunning, setFaultStop_eq, empty]
    rw [failList_still still, setFaultStop_eq, empty]
    rfl
  have quiet : atRest (setFaultStop s) := by
    rw [setFaultStop_eq]
    exact ⟨empty, idle⟩
  have tested := floorNoted_overlapAfterBy (fun n s _ => floorNoted_raiseFlags n s) s quiet
  refine ⟨rest_enterFaultStop ⟨empty, idle⟩, stop.port.trans (by rw [blankingAfterStop_idle idle]), ?_, fun _ => stop.marker, stop.faults⟩
  have ready := tested.ready
  rw [enterFaultStop, failed, faultMotion_eq]
  refine Eq.trans ?_ (ready.trans ?_)
  · rfl
  · rw [setFaultStop_eq]

theorem floorNoted_raise (n : FaultName) {s : State} (rest : atRest s) : FloorNoted s (raise .floorOverlap n s) := by
  have flags := floorNoted_raiseFlags n s
  unfold raise
  dsimp only
  split
  · exact flags.trans (floorNoted_enterFaultStop (flags.rest.rests rest))
  · exact flags

theorem floorNoted_overlapAfter (b : State) {s : State} (rest : atRest s) : FloorNoted s (overlapAfter b s) :=
  floorNoted_overlapAfterBy (fun n _ rest => floorNoted_raise n rest) b rest

/-- The completion at once of a move of N 0, whatever peers are known: the overlap test follows it (R67, R85). -/
theorem startHead_completes {s : State} {e : CueEntry} {c : ShotContent} {p : Plan} (list : s.cues = [e]) (copy : e.copy = some c)
    (plan : e.plan = some p) (idle : s.profile.motion = .idle) (quiet : s.peers = [] ∨ (chosenRoute p).legs = [])
    (zero : p.common.getD p.duration = 0) :
    ∃ t, startHead s = (t, true) ∧ FloorNoted (moveCompleted e [] c p s) t ∧
      (s.peers = [] → t = moveCompleted e [] c p s) := by
  have moves : (moveStarted e [] c p s).profile.motion ≠ .idle := by
    show (if s.profile.hold then MotionState.held else .running) ≠ .idle
    cases s.profile.hold <;> simp
  have same : relabelled (moveStarted e [] c p s) = relabelled s :=
    congrArg (List.map _) (relabelled_ownStarted p s.claims.own)
  refine ⟨_, (startHead_eq list copy plan idle quiet).trans (if_pos zero), ?_, fun none => ?_⟩
  · rw [completeMove_tested rfl moves, same]
    exact floorNoted_overlapAfter _ ⟨rfl, rfl⟩
  · rw [completeMove_eq rfl moves none, same]
    rfl

end Sys2Proof.Machine
end

section
/-! A CUE read at once, by what its plan comes to: too long, blocked, routed, started, completed, or ended by a fault stop. -/
namespace Sys2Proof.Machine

/-- The state in which the entry of an accepted CUE has joined the list. -/
def cueJoined (p : CuePayload) (mode : StartMode) (s : State) : State :=
  { endSpent s with
    cues := s.cues ++ [newEntry p mode]
    groups := { s.groups with records := s.groups.records ++ broughtRecord p mode } }

theorem limitsRaised_flags (n : Nat) (b : BusInterface) (s : State) :
    (limitsRaised n b s).faults.get .axisLimit = flagsAfterRaises n (s.faults.get .axisLimit) ∧
      ∀ k, k ≠ .axisLimit → (limitsRaised n b s).faults.get k = s.faults.get k :=
  ⟨by simp [limitsRaised, PerClass.get_set], fun k other => by simp [limitsRaised, PerClass.get_set, other]⟩

/-- The fault set after the raises differs exactly when the flags of AXIS_LIMIT do. -/
theorem limitsRaised_changes (n : Nat) (b : BusInterface) (s : State) :
    decide ((limitsRaised n b s).faults ≠ s.faults) =
      decide (flagsAfterRaises n (s.faults.get .axisLimit) ≠ s.faults.get .axisLimit) := by
  refine decide_eq_decide.mpr (not_congr ⟨fun same => ?_, fun same => ?_⟩)
  · rw [← (limitsRaised_flags n b s).1, same]
  · rw [limitsRaised, same]
    exact faults_set_get s.faults .axisLimit

theorem firstReport_length (s : State) (c : FaultClass) (names : List FaultName) : (firstReport s c names).length ≤ 1 := by
  unfold firstReport
  split
  · simp
  · simp

/-- A deferral told, when there is one. -/
def deferralPlaced (defers : Bool) (tag : Byte) (b : BusInterface) : BusInterface :=
  if defers then busAfterReport (.cue tag .deferred) b else b

theorem deferralPlaced_readyFifo (defers : Bool) (tag : Byte) (b : BusInterface) :
    (deferralPlaced defers tag b).readyFifo = b.readyFifo := by
  cases defers <;> simp [deferralPlaced]

theorem deferralPlaced_stateMarker (defers : Bool) (tag : Byte) (b : BusInterface) :
    (deferralPlaced defers tag b).stateMarker = b.stateMarker := by
  cases defers <;> simp [deferralPlaced]

theorem deferralPlaced_reports {defers : Bool} {tag : Byte} {b : BusInterface} (room : defers = true → b.reportFifo.length < 8) :
    (deferralPlaced defers tag b).reportFifo = b.reportFifo ++ if defers then [.cue tag .deferred] else [] := by
  cases defers with
  | false => simp [deferralPlaced]
  | true => exact busAfterReport_room (room rfl)

theorem without_readyFifo (before after : List CueEntry) (o : CueOutcome) (e : CueEntry) (s : State) :
    (without before after o e false s).bus.readyFifo = s.bus.readyFifo := fifoWithout_quiet (e := e) (.inl rfl)

theorem ReadPlace.claimsWithout {before : List CueEntry} {starts : PerAxis Position} {kind : ClaimKind} {v : State}
    (place : ReadPlace before starts kind v) {e : CueEntry} (queued : e.stage = .queued) {claims : ClaimManager}
    (none : ∀ o ∈ claims.own, o.claim.kind ≠ kind) : Machine.claimsWithout before.length e claims = claims := by
  have own : (Machine.claimsWithout before.length e claims).own = claims.own := by
    refine (claimsWithout_own (kind := kind) ?_ e claims).trans (filter_kind_same none)
    cases place with
    | head nothing _ is => exact .inl ⟨by simp [nothing], is⟩
    | second d q one _ _ _ _ is => exact .inr ⟨by simp [one], is⟩
  rw [Machine.claimsWithout, if_pos (.inl queued), if_pos (.inl queued)]
  exact congrArg (fun l => ({ claims with own := l } : ClaimManager)) own

theorem ReadPlace.kind_head {before : List CueEntry} {starts : PerAxis Position} {kind : ClaimKind} {v : State}
    (place : ReadPlace before starts kind v) (nothing : before = []) : kind = .leg := by
  cases place with
  | head _ _ is => exact is
  | second d q one => simp [one] at nothing

/-- A staged entry that does not start, settled: deferred and told, or left as it is. -/
theorem ReadPlace.settles {before : List CueEntry} {starts : PerAxis Position} {kind : ClaimKind} {v w : State} {f e : CueEntry}
    {defers : Bool} (place : ReadPlace before starts kind v) (list : v.cues = before ++ [f]) (queued : f.stage = .queued)
    (active : v.control.station = .active) (read : planAt before.length v = (w, .staged)) (cues : w.cues = before ++ [e])
    (fresh : e.deferralReported = false) (waits : before = [] → testHead w = (headSettled e [] (deferred e w) w, false))
    (isDefers : (decide (kind = .leg) && deferred e w) = defers) :
    refill before.length v =
      { w with cues := before ++ [{ e with deferralReported := defers }], bus := deferralPlaced defers e.tag w.bus } := by
  have head : defers = true → before = [] := fun d => by
    cases place with
    | head nothing => exact nothing
    | second _ _ _ _ _ _ _ is => simp [← isDefers, is] at d
  rw [place.staged list queued active read cues waits, isDefers, headSettled_last cues fresh head]
  rfl

/-- Entry to FAULT_STOP with one QUEUED entry: it fails with its record, and with no LEG rectangle nothing else of the floor
changes (R50, R166). -/
theorem enterFaultStop_queued {s : State} {e : CueEntry} (list : s.cues = [e]) (queued : e.stage = .queued) :
    (enterFaultStop s).groups = groupsWithout e s.groups ∧
      ((∀ o ∈ s.claims.own, o.claim.kind ≠ .leg) → (enterFaultStop s).claims.own = s.claims.own ∧
        (s.bus.reportFifo.length < 8 →
          (enterFaultStop s).bus.reportFifo = s.bus.reportFifo ++ [.cue e.tag (.failed .fault)])) := by
  have failed : failList (setFaultStop s) = without [] [] (.failed .fault) e true (setFaultStop s) := by
    have still : headRunning (setFaultStop s) = false := by simp [headRunning, setFaultStop_eq, list, queued]
    rw [failList_still still, setFaultStop_eq]
    simp only [list]
    rfl
  have form : enterFaultStop s = faultMotion (overlapAfterBy raiseFlags s (without [] [] (.failed .fault) e true (setFaultStop s))) := by
    rw [enterFaultStop, failed]
  rw [form, faultMotion_eq]
  refine ⟨?_, fun own => ?_⟩
  · obtain ⟨overlap, faults, bus, tested, _⟩ := overlapNoted_after s (without [] [] (.failed .fault) e true (setFaultStop s))
    rw [tested, setFaultStop_eq]
    rfl
  · have left : (without [] [] (.failed .fault) e true (setFaultStop s)).claims.own = s.claims.own := by
      rw [setFaultStop_eq]
      exact (claimsWithout_own (.inl ⟨rfl, rfl⟩) e s.claims).trans (filter_kind_same own)
    have held : heldClaims s = heldClaims (without [] [] (.failed .fault) e true (setFaultStop s)) := by
      rw [heldClaims, heldClaims, left]
    rw [overlapAfterBy, if_pos held]
    refine ⟨left, fun room => ?_⟩
    rw [setFaultStop_eq]
    exact busAfterReport_room room

/-- The state in which an accepted CUE's entry has joined and its clamped axes have been raised. -/
def cueLimited (p : CuePayload) (mode : StartMode) (n : Nat) (b : BusInterface) (s : State) : State :=
  limitsRaised n b (cueJoined p mode s)

/-! ### What the planning read of an accepted CUE comes to -/

/-- The deferral of an accepted CUE's entry applies at once (R45). -/
def cueDefers (mode : StartMode) (kind : ClaimKind) (c : ShotContent) (s : State) : Bool :=
  decide (mode = .immediate ∧ kind = .leg) && s.tally.onAir && !c.livePermitted

/-- An accepted CUE's entry, once CLAIMED, starts at the same event (R43). -/
def cueBegins (mode : StartMode) (kind : ClaimKind) (c : ShotContent) (s : State) : Bool :=
  decide (mode = .immediate ∧ kind = .leg) && !cueDefers mode kind c s &&
    decide (s.profile.motion = .idle ∧ s.control.restartPending = false)

theorem cueBegins_iff {mode : StartMode} {kind : ClaimKind} {c : ShotContent} {s : State} :
    cueBegins mode kind c s = true ↔ (mode = .immediate ∧ kind = .leg) ∧ cueDefers mode kind c s = false ∧
      s.profile.motion = .idle ∧ s.control.restartPending = false := by
  simp [cueBegins, and_assoc]

theorem cueDefers_eq {mode : StartMode} {kind : ClaimKind} {c : ShotContent} {s w : State} {e : CueEntry}
    (copy : e.copy = some c) (take : e.take = decide (mode = .immediate)) (tally : w.tally = s.tally)
    (stage : e.stage = .routing ∨ e.stage = .claiming ∨ e.stage = .claimed) :
    (decide (kind = .leg) && deferred e w) = cueDefers mode kind c s := by
  have both : deferred e w = (decide (mode = .immediate) && s.tally.onAir && !c.livePermitted) := by
    rw [deferred_eq copy, take, tally]
    rcases stage with stage | stage | stage <;> simp [stage, Bool.and_assoc, Bool.and_comm (!c.livePermitted)]
  rw [both, cueDefers, Bool.decide_and]
  cases decide (kind = .leg) <;> cases decide (mode = .immediate) <;> rfl

theorem stagedEntry_stage (e : CueEntry) (c : ShotContent) (p : Plan) (i : Nat) (r : Route) :
    (stagedEntry e c p i r).stage = .routing ∨ (stagedEntry e c p i r).stage = .claiming ∨
      (stagedEntry e c p i r).stage = .claimed := by
  simp only [stagedEntry]
  split <;> simp

section
variable {s : State} {p : CuePayload} {mode : StartMode} {c : ShotContent} {starts : PerAxis Position} {kind : ClaimKind}
  {n : Nat} {b : BusInterface} {plan : Plan} {i : Nat} {r : Route}
  (place : ReadPlace s.cues starts kind (cueJoined p mode s)) (active : s.control.station = .active)
  (read : planAt s.cues.length (cueJoined p mode s) = (enterRouting s.cues.length c plan (cueLimited p mode n b s), .staged))
include place active read

/-- The entry of an accepted CUE with no free route: in ROUTING, its deferral told (R45, R76). -/
theorem cue_blocked (blocked : allBlocked plan (obstacles s)) :
    refill s.cues.length (cueJoined p mode s) = { cueLimited p mode n b s with
      cues := s.cues ++ [{ blockedEntry (newEntry p mode) c plan with deferralReported := cueDefers mode kind c s }]
      claims := claimsWaiting plan s
      bus := deferralPlaced (cueDefers mode kind c s) p.tag b } := by
  rw [enterRouting_blocked (s := cueLimited p mode n b s) (e := newEntry p mode) (after := []) rfl blocked] at read
  exact place.settles (f := newEntry p mode) rfl rfl active read rfl rfl
    (fun nothing => testHead_last (by rw [nothing]; rfl) (.inl (by simp [blockedEntry])))
    (cueDefers_eq rfl rfl rfl (.inl rfl))

variable (free : firstFree plan (obstacles s) i r)
include free

/-- The entry of an accepted CUE with a free route that does not start at once: CLAIMING or CLAIMED, its legs announced, its
deferral told (R45, R75). -/
theorem cue_routed (waits : r.legs ≠ [] ∨ cueBegins mode kind c s = false) :
    refill s.cues.length (cueJoined p mode s) = { cueLimited p mode n b s with
      cues := s.cues ++ [{ stagedEntry (newEntry p mode) c plan i r with deferralReported := cueDefers mode kind c s }]
      claims := claimsAnnounced s.cues.length (newEntry p mode) r.legs (claimsWaiting plan s)
      bus := deferralPlaced (cueDefers mode kind c s) p.tag (busAnnounced r.legs (onBus s) b) } := by
  rw [enterRouting_free (s := cueLimited p mode n b s) (e := newEntry p mode) (after := []) rfl free] at read
  have still : s.cues = [] → ∀ w : State, w.tally = s.tally → w.profile = s.profile → w.control = s.control →
      (stagedEntry (newEntry p mode) c plan i r).stage ≠ .claimed ∨ (stagedEntry (newEntry p mode) c plan i r).take = false ∨
        deferred (stagedEntry (newEntry p mode) c plan i r) w = true ∨
          ((stagedEntry (newEntry p mode) c plan i r).mode ≠ .group ∧
            ¬(w.profile.motion = .idle ∧ w.control.restartPending = false)) := fun nothing w tally profile control => by
    have isLeg := place.kind_head nothing
    rcases waits with legs | no
    · exact .inl (by simp [stagedEntry, legs])
    · by_cases immediate : mode = .immediate
      · have defers := cueDefers_eq (mode := mode) (kind := kind) (e := stagedEntry (newEntry p mode) c plan i r) (w := w)
          rfl rfl tally (stagedEntry_stage _ _ _ _ _)
        rw [isLeg, decide_eq_true rfl, Bool.true_and] at defers
        rw [defers, profile, control]
        cases isDefers : cueDefers mode .leg c s with
        | true => exact .inr (.inr (.inl rfl))
        | false =>
          refine .inr (.inr (.inr ⟨by simp [stagedEntry, newEntry, immediate], fun free => ?_⟩))
          rw [isLeg] at no
          simp [cueBegins, immediate, immediate ▸ isDefers, free] at no
      · exact .inr (.inl (decide_eq_false immediate))
  exact place.settles (f := newEntry p mode) rfl rfl active read rfl rfl
    (fun nothing => testHead_last (by rw [nothing]; rfl) (still nothing _ rfl rfl rfl))
    (cueDefers_eq rfl rfl rfl (stagedEntry_stage _ _ _ _ _))

/-- The state in which the entry of an accepted CUE is CLAIMED as the only one. -/
def cueClaimed (p : CuePayload) (mode : StartMode) (n : Nat) (b : BusInterface) (c : ShotContent) (plan : Plan) (i : Nat) (r : Route)
    (s : State) : State :=
  { cueLimited p mode n b s with cues := [stagedEntry (newEntry p mode) c plan i r] }

variable (legs : r.legs = []) (quiet : waitsForFloor plan s = false) (begins : cueBegins mode kind c s = true)
include legs quiet begins

/-- A route without legs leaves an accepted CUE's entry CLAIMED with nothing announced, and its test starts it. -/
theorem cue_starts :
    s.cues = [] ∧ planAt 0 (cueJoined p mode s) = (cueClaimed p mode n b c plan i r s, .staged) ∧
      testHead (cueClaimed p mode n b c plan i r s) = startHead (cueClaimed p mode n b c plan i r s) := by
  obtain ⟨⟨immediate, isLeg⟩, calm, idle, clear⟩ := cueBegins_iff.mp begins
  have nothing : s.cues = [] := by
    cases place with
    | head nothing => exact nothing
    | second _ _ _ _ _ _ _ is => simp [is] at isLeg
  have claimed : (stagedEntry (newEntry p mode) c plan i r).stage = .claimed := if_pos legs
  have taken : (stagedEntry (newEntry p mode) c plan i r).take = true := decide_eq_true immediate
  have goes : deferred (stagedEntry (newEntry p mode) c plan i r) (cueClaimed p mode n b c plan i r s) = false := by
    have defers := cueDefers_eq (mode := mode) (kind := kind) (s := s) (e := stagedEntry (newEntry p mode) c plan i r)
      (w := cueClaimed p mode n b c plan i r s) rfl rfl rfl (.inr (.inr claimed))
    rwa [isLeg, decide_eq_true rfl, Bool.true_and, ← isLeg, calm] at defers
  refine ⟨nothing, ?_, testHead_starts rfl goes claimed taken (by simp [stagedEntry, newEntry, immediate]) active idle clear⟩
  have announced : claimsAnnounced s.cues.length (newEntry p mode) r.legs (claimsWaiting plan (cueLimited p mode n b s)) =
      s.claims := by
    have quiet : waitsForFloor plan (cueLimited p mode n b s) = false := quiet
    rw [legs, claimsAnnounced_nil, claimsWaiting, quiet, Bool.or_false]
    rfl
  rw [enterRouting_free (s := cueLimited p mode n b s) (e := newEntry p mode) (after := []) rfl free, announced, nothing,
    legs] at read
  exact read

/-- The start of an accepted CUE's entry, its move longer than nothing. -/
theorem cue_started (route : (chosenRoute { plan with chosen := some i }).legs = []) (long : 1 ≤ plan.common.getD plan.duration) :
    refill s.cues.length (cueJoined p mode s) =
      moveStarted (stagedEntry (newEntry p mode) c plan i r) [] c { plan with chosen := some i } (cueClaimed p mode n b c plan i r s) := by
  obtain ⟨nothing, staged, test⟩ := cue_starts place active read free legs quiet begins
  have idle := (cueBegins_iff.mp begins).2.2.1
  have started := startHead_long (s := cueClaimed p mode n b c plan i r s) (e := stagedEntry (newEntry p mode) c plan i r) (c := c)
    (p := { plan with chosen := some i }) rfl rfl rfl idle (.inr route) long
  have list : (cueJoined p mode s).cues = newEntry p mode :: [] := by
    show s.cues ++ _ = _
    rw [nothing]
    rfl
  have result := takeUpHead_staged list rfl active staged (test.trans started)
  rw [takeUpSecond_no (prePlanAllowed_short (by simp [moveStarted, moveBegun]))] at result
  rw [nothing]
  exact result

/-- The start of an accepted CUE's entry whose move has N of 0: it completes at the same event, and the overlap test follows. -/
theorem cue_completed (route : (chosenRoute { plan with chosen := some i }).legs = []) (zero : plan.common.getD plan.duration = 0) :
    ∃ t, refill s.cues.length (cueJoined p mode s) = t ∧ kept t = kept (cueClaimed p mode n b c plan i r s) ∧
      FloorNoted (moveCompleted (stagedEntry (newEntry p mode) c plan i r) [] c { plan with chosen := some i }
        (cueClaimed p mode n b c plan i r s)) t ∧
      (s.peers = [] → t = moveCompleted (stagedEntry (newEntry p mode) c plan i r) [] c { plan with chosen := some i }
        (cueClaimed p mode n b c plan i r s)) := by
  obtain ⟨nothing, staged, test⟩ := cue_starts place active read free legs quiet begins
  have idle := (cueBegins_iff.mp begins).2.2.1
  obtain ⟨t, started, floor, alone⟩ := startHead_completes (s := cueClaimed p mode n b c plan i r s)
    (e := stagedEntry (newEntry p mode) c plan i r) (c := c) (p := { plan with chosen := some i }) rfl rfl rfl idle (.inr route) zero
  have list : (cueJoined p mode s).cues = newEntry p mode :: [] := by
    show s.cues ++ _ = _
    rw [nothing]
    rfl
  have keeps := kept_startHead (cueClaimed p mode n b c plan i r s)
  rw [started] at keeps
  refine ⟨t, ?_, keeps, floor, alone⟩
  rw [nothing]
  exact takeUpHead_ended list rfl active staged (test.trans started)

end

/-- Settles O24: the planning read's outcome decides, and each outcome's state is read off its closed form. -/
theorem headCueIsPlannedAndAnnounced : Obligations.HeadCueIsPlannedAndAnnounced := by
  intro s h p mode c starts kind taken code active group tag shot idle valid where_ entry groups plan limited reports takes defers
    begins told answered
  have place : ReadPlace s.cues starts kind (cueJoined p mode s) := by
    rcases where_ with ⟨empty, from_, is⟩ | ⟨d, q, one, running, plan, moves, from_, is⟩
    · exact .head empty from_ is
    · exact .second d q one running plan moves from_ is
  have few : s.cues.length < 8 := by rcases where_ with ⟨empty, _⟩ | ⟨d, q, one, _⟩ <;> simp [*]
  have isEntry : newEntry p mode = entry := by simp [entry, newEntry, beq_eq_decide]
  have run : exec (.cue h p) s = .next (refill s.cues.length (cueJoined p mode s)) := by
    rw [exec_cue_accepted taken code active ⟨tag, few, shot, group⟩, addEntry_eq]
    rfl
  refine ⟨fun a => PerAxis.get_ofFn _ a, fun mild => ?_, fun clamped severe empty => ?_⟩
  · obtain ⟨b, noted, read⟩ := place.planAt_mild (f := newEntry p mode) rfl idle shot valid mild
    have read : planAt s.cues.length (cueJoined p mode s) =
        if 65535 < plan.duration then
          (without s.cues [] (.failed .planRange) (newEntry p mode) false (cueLimited p mode limited.length b s), .left)
        else (enterRouting s.cues.length c plan (cueLimited p mode limited.length b s), .staged) := read
    have raised : (cueLimited p mode limited.length b s).faults.get .axisLimit =
        flagsAfterRaises limited.length (s.faults.get .axisLimit) ∧
          ∀ k, k ≠ FaultClass.axisLimit → (cueLimited p mode limited.length b s).faults.get k = s.faults.get k :=
      limitsRaised_flags limited.length b (cueJoined p mode s)
    obtain ⟨axis, others⟩ := raised
    have fifo : s.bus.reportFifo.length < 8 → b.reportFifo = reports := fun room => noted.reports (.inl room)
    have shortReports : reports.length ≤ s.bus.reportFifo.length + 1 := by
      have one := firstReport_length s .axisLimit (limited.map .axis)
      simp only [reports, List.length_append]
      omega
    have answers : ∀ bus : BusInterface, bus.reportFifo = b.reportFifo →
        s.bus.reportFifo.length + (if defers then 1 else 0) < 8 →
        (deferralPlaced defers p.tag bus).reportFifo = answered := fun bus same room => by
      have fifo := same.trans (fifo (by omega))
      rw [deferralPlaced_reports fun d => by rw [fifo]; rw [d] at room; simp at room; omega, fifo]
    by_cases long : 65535 < plan.duration
    · rw [place.left (f := newEntry p mode) rfl rfl active (read.trans (if_pos long)) (List.append_nil _)] at run
      refine ⟨_, run, axis, fun _ => ⟨others, rfl⟩, rfl, rfl, rfl, (without_readyFifo _ _ _ _ _).trans noted.ready,
        fun _ own => ⟨List.append_nil _, place.claimsWithout (e := newEntry p mode) rfl own,
          groupsWithout_newEntry fun mode => (group mode).2.2.1, rfl, rfl, fun room => ?_⟩, fun short => absurd long (by omega),
        fun i r short => absurd long (by omega)⟩
      have fifo := fifo (by omega)
      show (busAfterReport (.cue p.tag (.failed .planRange)) b).reportFifo = _
      rw [busAfterReport_room (by rw [fifo]; omega), fifo]
    have staged := read.trans (if_neg long)
    cases choice : plan.candidates.findIdx? (routeFree plan (obstacles s)) with
    | none =>
      have blocked : allBlocked plan (obstacles s) := (allBlocked_iff plan _).mp choice
      rw [cue_blocked place active staged blocked, isEntry] at run
      refine ⟨_, run, axis, fun _ => ⟨others, rfl⟩, rfl, rfl, rfl, (deferralPlaced_readyFifo _ _ _).trans noted.ready,
        fun far => absurd far long, fun _ _ => ⟨rfl, rfl, rfl, rfl, ?_, answers b rfl⟩, fun i r _ free => ?_⟩
      · rw [← waitsForFloor_of_blocked (s := s) blocked]
        rfl
      · have some := (firstFree_iff plan _ i).mpr ⟨r, free⟩
        simp [choice] at some
    | some i =>
      obtain ⟨r, free⟩ := (firstFree_iff plan _ i).mp choice
      have only : ∀ i' r', firstFree plan (obstacles s) i' r' → i' = i ∧ r' = r := fun i' r' free' => by
        have index : i' = i := Option.some.inj (((firstFree_iff plan _ i').mpr ⟨r', free'⟩).symm.trans choice)
        subst index
        exact ⟨rfl, Option.some.inj (free'.1.symm.trans free.1)⟩
      have member : r ∈ plan.candidates := List.mem_of_getElem? free.1
      have notBlocked : ¬allBlocked plan (obstacles s) := fun blocked => by
        simp [(allBlocked_iff plan _).mpr blocked] at choice
      have on : onBus s = true := by simp [onBus, active]
      by_cases waits : r.legs ≠ [] ∨ begins = false
      · rw [cue_routed place active staged free waits, isEntry] at run
        refine ⟨_, run, axis, fun _ => ⟨others, rfl⟩, rfl, rfl, rfl,
          (deferralPlaced_readyFifo _ _ _).trans ((busAnnounced_readyFifo _ _ _).trans noted.ready),
          fun far => absurd far long, fun _ blocked => absurd blocked notBlocked, fun i' r' _ free' => ?_⟩
        obtain ⟨rfl, rfl⟩ := only i' r' free'
        refine ⟨fun _ => ⟨rfl, rfl, rfl, rfl, ?_, ?_, answers _ (busAnnounced_reportFifo _ _ _)⟩, fun none starts => ?_⟩
        · rw [← place.kindAt, ← waitsForFloor_of_candidate (s := s) member]
          rfl
        · have changes := limitsRaised_changes (limitAxes (cueJoined p mode s) starts c).length b (cueJoined p mode s)
          have marker := noted.marker
          have joinedOn : onBus (cueJoined p mode s) = true := on
          rw [List.length_map, joinedOn, Bool.true_and, ← changes] at marker
          show (deferralPlaced _ p.tag (busAnnounced r'.legs (onBus s) b)).stateMarker = _
          rw [deferralPlaced_stateMarker, busAnnounced_stateMarker, on, Bool.and_true, marker, Bool.or_right_comm]
          rfl
        · simp [none, starts] at waits
      · obtain ⟨legs, begun⟩ : r.legs = [] ∧ begins = true := by simpa using waits
        obtain ⟨⟨immediate, isLeg⟩, notDeferred, _⟩ := cueBegins_iff.mp begun
        have quiet : waitsForFloor plan s = false := by
          rw [waitsForFloor_of_candidate member]
          simp [legs]
        have route : (chosenRoute { plan with chosen := some i }).legs = [] := by simp [chosenRoute, free.1, legs]
        have single : entry.group = none := if_neg (by simp [immediate])
        have groupsClaimed : (cueClaimed p mode limited.length b c plan i r s).groups = s.groups := by
          show ({ s.groups with records := s.groups.records ++ broughtRecord p mode } : Groups) = s.groups
          simp [broughtRecord, immediate]
        by_cases zero : plan.duration = 0
        · obtain ⟨t, result, keeps, floor, alone⟩ := cue_completed place active staged free legs quiet begun route zero
          rw [result] at run
          rw [isEntry] at floor alone
          refine ⟨t, run, (floor.faults _ (by decide)).trans axis, fun cases_ => ?_, (kept_store keeps).trans rfl,
            (kept_peers keeps).trans rfl, (kept_tally keeps).trans rfl, floor.ready.trans ((busAfterReport_readyFifo _ _).trans
              ((busAfterReport_readyFifo _ b).trans noted.ready)), fun far => absurd far long,
            fun _ blocked => absurd blocked notBlocked, fun i' r' _ free' => ?_⟩
          · have none : s.peers = [] := by
              rcases cases_ with no | some | none
              · simp [begun] at no
              · omega
              · exact none
            rw [alone none]
            exact ⟨others, rfl⟩
          obtain ⟨rfl, rfl⟩ := only i' r' free'
          refine ⟨fun no => absurd no waits, fun _ _ => ⟨?_, floor.port, floor.marker ?_, fun some => absurd zero (by omega),
            fun _ none => ?_⟩⟩
          · exact floor.rest.groups.trans ((groupsWithout_none (by exact single) _).trans groupsClaimed)
          · exact (congrArg (_ || ·) on).trans (Bool.or_true _)
          · rw [alone none]
            refine ⟨rfl, rfl, rfl, ?_, rfl, fun room => ?_⟩
            · have free : c.livePermitted = true ∨ s.tally.onAir = false := by
                simpa [cueDefers, immediate, isLeg, imp_iff_not_or, or_comm] using notDeferred
              exact congrArg Profile.rate (startedProfile_free (s := s) (onAir := s.tally.onAir) free { plan with chosen := some i' })
            · have fifo := fifo (by omega)
              have first : (busAfterReport (.cue p.tag .started) b).reportFifo = reports ++ [.cue p.tag .started] := by
                rw [busAfterReport_room (by rw [fifo]; omega), fifo]
              show (busAfterReport (.cue p.tag .completed) (busMarked _ (busAfterReport (.cue p.tag .started) b))).reportFifo = _
              rw [busAfterReport_room (by rw [busMarked_reportFifo, first]; simp; omega), busMarked_reportFifo, first]
              simp
        · rw [cue_started place active staged free legs quiet begun route (Nat.one_le_iff_ne_zero.mpr zero), isEntry] at run
          refine ⟨_, run, axis, fun _ => ⟨others, rfl⟩, rfl, rfl, rfl, (busAfterReport_readyFifo _ b).trans noted.ready,
            fun far => absurd far long, fun _ blocked => absurd blocked notBlocked, fun i' r' _ free' => ?_⟩
          obtain ⟨rfl, rfl⟩ := only i' r' free'
          refine ⟨fun no => absurd no waits, fun _ _ => ⟨groupsClaimed, rfl, (congrArg (_ || ·) on).trans (Bool.or_true _),
            fun _ => ⟨rfl, ?_, rfl, fun room => ?_⟩, fun z => absurd z zero⟩⟩
          · exact congrArg (fun l => ({ s.claims with own := l } : ClaimManager)) (if_pos route)
          · have fifo := fifo (by omega)
            show (busAfterReport (.cue p.tag .started) b).reportFifo = _
            rw [busAfterReport_room (by rw [fifo]; omega), fifo]
  · obtain ⟨a, as, axes⟩ := List.exists_cons_of_ne_nil clamped
    have stops : isStop (cueJoined p mode s) .axisLimit = true := beq_iff_eq.mpr severe
    have read := place.planAt_severe (f := newEntry p mode) rfl idle shot valid (a := a) (as := as) axes active stops
    have listV : (cueJoined p mode s).cues = newEntry p mode :: [] := by
      show s.cues ++ _ = _
      rw [empty]
      rfl
    rw [empty] at read run
    have run : exec (.cue h p) s = .next (raise .axisLimit (.axis a) (cueJoined p mode s)) :=
      run.trans (congrArg _ (takeUpHead_stays listV rfl active read))
    have stopped := raise_stopped (.axis a) (s := cueJoined p mode s) active stops
    have flagged := raise_stop .axisLimit (.axis a) (cueJoined p mode s) active stops
    rw [raiseFlags_eq] at flagged
    obtain ⟨groupsLeft, quiet⟩ := enterFaultStop_queued (s := { cueJoined p mode s with
      faults := (cueJoined p mode s).faults.set .axisLimit (flagsAfterRaise ((cueJoined p mode s).faults.get .axisLimit))
      bus := busAfterRaise .axisLimit (.axis a) (cueJoined p mode s) }) listV rfl
    refine ⟨_, run, ?_, ?_, ?_, stopped.control, fun own room => ?_⟩
    · rw [stopped.cues, listV]
      rfl
    · rw [flagged, groupsLeft]
      exact groupsWithout_newEntry fun mode => (group mode).2.2.1
    · rw [stopped.faults _ (by decide), PerClass.get_set, if_pos rfl]
      rfl
    · have first : (busAfterRaise .axisLimit (.axis a) (cueJoined p mode s)).reportFifo = reports := by
        have all : limited.map FaultName.axis = .axis a :: as.map .axis := by rw [axes, List.map_cons]
        simp only [reports, all]
        exact busAfterRaise_firstReport (.inl (by show s.bus.reportFifo.length < 8; omega))
      have more := firstReport_length s .axisLimit (limited.map .axis)
      obtain ⟨ownLeft, reported⟩ := quiet own
      rw [flagged]
      refine ⟨ownLeft, (reported ?_).trans ?_⟩
      · rw [first]
        simp only [reports, List.length_append]
        omega
      · rw [first]
        rfl

end Sys2Proof.Machine
end

section
/-! The floor agreement by the shapes that the cue list takes: no entry, a head that waits for its move, a running head. Each
shape names its entries with what their stages ask of them, so that a proof about an operation is a case split over the shape
before it and the construction of the shape after it. The agreement is stated for those peer numbers alone whose membership in
the overlap set has been tested (`Agrees`). -/
namespace Sys2Proof.Machine

/-! ### Entries (R31, R42, R46, R62) -/

/-- Copy and plan of an entry past QUEUED, as its stage asks. -/
structure Planned (cfg : Configuration) (e : CueEntry) (c : ShotContent) (p : Plan) : Prop where
  copy : e.copy = some c
  plan : e.plan = some p
  built : planFrom cfg c p
  range : p.duration ≤ maxDuration
  unrouted : e.stage = .routing → p.chosen = none
  routed : e.stage ≠ .routing → ∃ i < p.candidates.length, p.chosen = some i
  legs : e.stage = .claiming → entryLegs e ≠ []
  common : ∀ n, p.common = some n → (e.stage = .groupWait ∨ e.stage = .running) ∧ p.duration ≤ n

/-- A GROUP entry is one with a group id (R31). -/
def modeRight (e : CueEntry) : Prop := e.mode = .group ↔ e.group ≠ none

/-- An entry whose planning read has yet to be made. -/
structure Unread (e : CueEntry) : Prop where
  queued : e.stage = .queued
  copy : e.copy = none
  plan : e.plan = none
  mode : modeRight e

/-- An entry whose move has not begun: unread, or planned from the given starts. -/
inductive Waits (cfg : Configuration) (starts : PerAxis Position) (e : CueEntry) : Prop
  | unread (unread : Unread e)
  | planned (c : ShotContent) (p : Plan) (past : e.stage ≠ .queued) (still : e.stage ≠ .running) (mode : modeRight e)
      (group : e.stage = .groupWait → e.mode = .group) (planned : Planned cfg e c p) (start : p.start = starts)

/-- The entries behind a running head: the second one may be planned from the head's targets, the others are unread. -/
def Follows (cfg : Configuration) (starts : PerAxis Position) : List CueEntry → Prop
  | [] => True
  | f :: more => Waits cfg starts f ∧ f.stage ≠ .groupWait ∧ ∀ g ∈ more, Unread g

/-! ### The list with motion and claims (R33, R70, R112) -/

/-- No move exists. -/
structure Still (s : State) : Prop where
  motion : s.profile.motion = .idle
  plan : s.profile.plan = none
  leg1Passed : s.profile.leg1Passed = false

/-- The running head's move is under way at the profile generator's time. -/
structure Moves (s : State) (c : ShotContent) (p : Plan) : Prop where
  motion : s.profile.motion ≠ .idle
  plan : s.profile.plan = some (runningPlanOf p c.livePermitted)
  time : s.profile.time < moveEnd (runningPlanOf p c.livePermitted)
  setpoint : s.port.lastSetpoint = setpointsAt (runningPlanOf p c.livePermitted) s.profile.time
  passed : s.profile.leg1Passed = true →
    twoLegs (runningPlanOf p c.livePermitted) = true ∧ leg1End (runningPlanOf p c.livePermitted) ≤ s.profile.time
  before : s.profile.leg1Passed = false → twoLegs (runningPlanOf p c.livePermitted) = true →
    s.profile.time < leg1End (runningPlanOf p c.livePermitted)

/-- The rectangles of a running head: PARKED without legs, else its LEG rectangles, that of leg 1 until its end. -/
def headClaims (s : State) (e : CueEntry) : List OwnClaim :=
  (if entryLegs e ≠ [] then [] else [parkedClaim s]) ++
    (heldLegs .leg (entryLegs e)).filter fun o => !(s.profile.leg1Passed && o.leg == 1)

/-- The rectangles of the entry behind a running head. -/
def secondClaims : List CueEntry → List OwnClaim
  | [] => []
  | f :: _ => stageClaims .nextLeg f

/-- A running head and what goes with it but the place of its move in time. -/
structure RunsHead (s : State) (e : CueEntry) (rest : List CueEntry) (c : ShotContent) (p : Plan) : Prop where
  list : s.cues = e :: rest
  on : onBus s = true
  stage : e.stage = .running
  mode : modeRight e
  planned : Planned (configOf s) e c p
  second : Follows (configOf s) p.target rest
  own : s.claims.own = headClaims s e ++ secondClaims rest

/-- The shapes of the list, each with its motion and claims. -/
inductive ListShape (s : State) : Prop
  | empty (list : s.cues = []) (still : Still s) (own : s.claims.own = if onBus s then [parkedClaim s] else [])
  | waiting (e : CueEntry) (rest : List CueEntry) (list : s.cues = e :: rest) (on : onBus s = true) (still : Still s)
      (head : Waits (configOf s) s.port.lastSetpoint e) (later : ∀ f ∈ rest, Unread f)
      (own : s.claims.own = parkedClaim s :: stageClaims .leg e)
  | running (e : CueEntry) (rest : List CueEntry) (c : ShotContent) (p : Plan) (runs : RunsHead s e rest c p) (moves : Moves s c p)

/-! ### Group records and READY FIFO (R97, R101 to R105) -/

/-- What an entry's stage means to its group record. -/
inductive GroupPhase where
  | gathering | waiting | moving


def groupPhase : Stage → GroupPhase
  | .queued => .gathering
  | .routing => .gathering
  | .claiming => .gathering
  | .claimed => .gathering
  | .groupWait => .waiting
  | .running => .moving

/-- The states a record may have in a phase of its entry. -/
def GroupPhase.fits : GroupPhase → GroupState → Prop
  | .gathering, state => state = .collecting
  | .waiting, state => state ≠ .ended
  | .moving, state => state = .ended

/-- The group ids of the list with the phases of their entries. -/
def groupParts (cues : List CueEntry) : List (Byte × GroupPhase) :=
  cues.filterMap fun e => e.group.map fun g => (g, groupPhase e.stage)

/-- The group whose readiness the head waits for, with the head's own N. -/
def waiterOf : List CueEntry → Option (Byte × Nat)
  | [] => none
  | e :: _ => if e.stage = .groupWait then e.group.map fun g => (g, ownDuration e) else none

/-- The READY frame in transmission. -/
def sendingOf (s : State) : Option QueuedReady :=
  s.bus.transmission.bind fun x =>
    match x.frame with
    | .ready r => some r
    | _ => none

/-- The readiness of a FIFO that some record may still take. -/
def liveOf (fifo : List QueuedReady) : List QueuedReady := fifo.filter fun q => !q.withdrawn && !q.orphan

/-- The records agree with the entries. -/
structure RecordsRight (number : Nat) (parts : List (Byte × GroupPhase)) (waiter : Option (Byte × Nat))
    (records : List GroupRecord) (wait : Bool) : Prop where
  distinct : (records.map GroupRecord.group).Nodup
  single : (parts.map Prod.fst).Nodup
  owned : ∀ x ∈ parts, ∃ r ∈ records, r.group = x.1 ∧ x.2.fits r.state
  slot : ∀ r ∈ records, ∃ m ∈ r.slots, m.number = number
  recorded : ∀ r ∈ records, r.state = .collecting → ∀ m ∈ r.slots, m.number = number → ∀ n g, m.ready = some (n, g) →
    waiter = some (r.group, n)
  waits : wait = true → ∃ r ∈ records, r.state = .collecting ∧ ∃ n, waiter = some (r.group, n)

/-- The READY FIFO agrees with head, records and transmission. -/
structure FifoRight (number : Nat) (waiter : Option (Byte × Nat)) (records : List GroupRecord) (fifo : List QueuedReady)
    (sending : Option QueuedReady) : Prop where
  one : (liveOf fifo).length ≤ 1
  queued : ∀ q ∈ liveOf fifo, waiter = some (q.group, q.duration) ∧ ∃ r ∈ records, r.group = q.group ∧
    r.state = .collecting ∧ ∀ m ∈ r.slots, m.number = number → m.ready = none
  head : ∀ r, sending = some r → r.orphan = false ∧ ∃ q, fifo.head? = some q ∧ { q with orphan := false } = r
  clean : ∀ q ∈ fifo.drop (if sending.isSome then 1 else 0), q.orphan = false

/-! ### The agreement -/

/-- What the agreement asks of records, READY FIFO, peers and overlap set, the latter known to be right for the peer numbers that
satisfy `tested`. -/
structure Around (tested : Nat → Prop) (s : State) : Prop where
  sane : ∀ a, 1 ≤ ((configOf s).axes.get a).speed
  numbers : (s.peers.map PeerEntry.number).Pairwise (· < ·)
  records : RecordsRight s.control.number (groupParts s.cues) (waiterOf s.cues) s.groups.records s.groups.waitTimer
  fifo : FifoRight s.control.number (waiterOf s.cues) s.groups.records s.bus.readyFifo (sendingOf s)
  offBus : onBus s = false → s.groups.records = [] ∧ s.bus.readyFifo = []
  ascending : s.claims.overlap.Pairwise (· < ·)
  known : ∀ n ∈ s.claims.overlap, ∃ p ∈ s.peers, p.number = n
  exact : ∀ n, tested n → (n ∈ s.claims.overlap ↔ ∃ p ∈ s.peers, p.number = n ∧ peerOverlaps p s = true)

/-- The floor agreement, with the overlap set known to be right for the peer numbers that satisfy `tested`. -/
structure Agrees (tested : Nat → Prop) (s : State) : Prop extends Around tested s where
  shape : ListShape s

theorem Around.weaken {P Q : Nat → Prop} {s : State} (h : Around P s) (less : ∀ n, Q n → P n) : Around Q s :=
  { h with exact := fun n q => h.exact n (less n q) }

theorem Agrees.weaken {P Q : Nat → Prop} {s : State} (h : Agrees P s) (less : ∀ n, Q n → P n) : Agrees Q s :=
  ⟨h.toAround.weaken less, h.shape⟩

/-- A number that no peer has needs no test: the overlap set holds peers only. -/
theorem Agrees.everywhere {P Q : Nat → Prop} {s : State} (h : Agrees P s) (all : ∀ p ∈ s.peers, P p.number) : Agrees Q s := by
  refine { h with exact := fun n _ => ?_ }
  by_cases peer : ∃ p ∈ s.peers, p.number = n
  · obtain ⟨p, mem, rfl⟩ := peer
    exact h.exact _ (all p mem)
  · exact ⟨fun mem => absurd (h.known n mem) peer, fun ⟨p, mem, same, _⟩ => absurd ⟨p, mem, same⟩ peer⟩

end Sys2Proof.Machine
end

section
/-! What a plan as built fixes about its move: the chosen route and its split, the setpoints at the start, at the end of leg 1 and
at the end, and the floor that the footprint crosses on the way (R12, R14, R56, R58, R64 to R67, R90). -/
namespace Sys2Proof.Machine

/-! ### The chosen route of a plan as built -/

theorem resplitAt_getElem? (n : Nat) : ∀ (i : Nat) (l : List Route),
    (resplitAt n i l)[i]? = l[i]?.map fun r => splitRoute n r.legs
  | _, [] => by simp [resplitAt]
  | 0, _ :: _ => rfl
  | i + 1, _ :: rs => resplitAt_getElem? n i rs

theorem splitRoute_legs (n : Nat) (legs : List Leg) : (splitRoute n legs).legs = legs := by
  match legs with
  | [] => rfl
  | [_] => rfl
  | _ :: _ :: _ => rfl

theorem resplitAt_length (n : Nat) : ∀ (i : Nat) (l : List Route), (resplitAt n i l).length = l.length
  | _, [] => by simp [resplitAt]
  | 0, _ :: _ => rfl
  | i + 1, _ :: rs => congrArg (· + 1) (resplitAt_length n i rs)

/-- Splitting a candidate anew over an earlier split leaves the later one alone (R64). -/
theorem resplitAt_resplitAt (n m : Nat) : ∀ (i : Nat) (l : List Route), resplitAt n i (resplitAt m i l) = resplitAt n i l
  | _, [] => by simp [resplitAt]
  | 0, r :: rs => by simp only [resplitAt, splitRoute_legs]
  | i + 1, r :: rs => congrArg (r :: ·) (resplitAt_resplitAt n m i rs)

/-- What a plan keeps of the plan as built from its start. -/
structure BuiltFrom (cfg : Configuration) (c : ShotContent) (p : Plan) : Prop where
  target : p.target = (buildPlan cfg p.start c).target
  distance : p.distance = (buildPlan cfg p.start c).distance
  direction : p.direction = (buildPlan cfg p.start c).direction
  axisDuration : p.axisDuration = (buildPlan cfg p.start c).axisDuration
  footprint : p.startFootprint = (buildPlan cfg p.start c).startFootprint
  duration : p.duration = (buildPlan cfg p.start c).duration
  candidates : p.candidates =
    match p.common, p.chosen with
    | some n, some i => resplitAt n i (buildPlan cfg p.start c).candidates
    | _, _ => (buildPlan cfg p.start c).candidates

theorem planFrom_iff {cfg : Configuration} {c : ShotContent} {p : Plan} : planFrom cfg c p ↔ BuiltFrom cfg c p := by
  cases p with | mk start target distance direction axisDuration footprint duration candidates chosen common =>
  constructor
  · intro built
    cases common with
    | none =>
      have eq : _ = _ := built
      injection eq with _ h1 h2 h3 h4 h5 h6 h7
      refine ⟨h1, h2, h3, h4, h5, h6, h7⟩
    | some n =>
      have eq : _ = _ := built
      injection eq with _ h1 h2 h3 h4 h5 h6 h7
      refine ⟨h1, h2, h3, h4, h5, h6, h7.trans ?_⟩
      cases chosen <;> rfl
  · rintro ⟨h1, h2, h3, h4, h5, h6, h7⟩
    dsimp only at h1 h2 h3 h4 h5 h6 h7
    subst h1 h2 h3 h4 h5 h6 h7
    cases common with
    | none => rfl
    | some n => cases chosen <;> rfl

section
variable {cfg : Configuration} {c : ShotContent} {p : Plan}

theorem BuiltFrom.leads (built : BuiltFrom cfg c p) (a : Axis) : LeadsToTarget p a := by
  rw [LeadsToTarget, built.distance, built.direction, built.target]
  exact buildPlan_leads (cfg := cfg) (starts := p.start) (c := c) a

/-- The chosen route is a candidate of the plan as built, split for the duration the move runs with (R60, R64). -/
theorem BuiltFrom.chosen (built : BuiltFrom cfg c p) {i : Nat} (inside : i < p.candidates.length) (chosen : p.chosen = some i) :
    ∃ legs ∈ candidateLegs cfg.halfWidth c.routeHint (floorPoint p.start) (floorPoint p.target) (p.axisDuration.get .x)
        (p.axisDuration.get .y),
      chosenRoute p = splitRoute (p.common.getD p.duration) legs := by
  have length : p.candidates.length = (buildPlan cfg p.start c).candidates.length := by
    rw [built.candidates]
    cases p.common <;> cases p.chosen <;> simp [resplitAt_length]
  obtain ⟨r, candidate⟩ : ∃ r, (buildPlan cfg p.start c).candidates[i]? = some r :=
    ⟨_, List.getElem?_eq_getElem (length ▸ inside)⟩
  obtain ⟨legs, route, member⟩ := buildPlan_route (List.mem_of_getElem? candidate)
  refine ⟨legs, by rw [built.target, built.axisDuration]; exact member, ?_⟩
  rw [chosenRoute, chosen, Option.bind_some, built.candidates, chosen]
  cases p.common with
  | none => simp only [candidate, Option.getD_some, Option.getD_none, route, built.duration]
  | some n =>
    simp only [resplitAt_getElem?, candidate, Option.map_some, Option.getD_some, route, splitRoute_legs]

end

/-! ### The floor that legs cross (R12, R14, R58) -/

/-- A footprint between two others, coordinate by coordinate, lies in their bounding box. -/
theorem footprint_holds_bound {w : Nat} {a b q : Point} (x : min a.x b.x ≤ q.x ∧ q.x ≤ max a.x b.x)
    (y : min a.y b.y ≤ q.y ∧ q.y ≤ max a.y b.y) {i j : Nat} (holds : (footprint w q).holds i j) :
    ((footprint w a).bound (footprint w b)).holds i j := by
  have low : ∀ {u v z : Nat}, min u v ≤ z → min ((min u 7999 - w) / 250) ((min v 7999 - w) / 250) ≤ (min z 7999 - w) / 250 := by
    intro u v z h
    omega
  have high : ∀ {u v z : Nat}, z ≤ max u v →
      min 31 ((min z 7999 + w) / 250) ≤ max (min 31 ((min u 7999 + w) / 250)) (min 31 ((min v 7999 + w) / 250)) := by
    intro u v z h
    omega
  obtain ⟨x0, x1, y0, y1⟩ := holds
  exact ⟨(low x.1).trans x0, x1.trans (high x.2), (low y.1).trans y0, y1.trans (high y.2)⟩

/-- A leg's rectangle is the bounding box of the footprints at its ends (R58). -/
def legSpans (w : Nat) (l : Leg) : Prop := l.rect = (footprint w l.start).bound (footprint w l.stop)

/-- A footprint between the ends of a leg lies in the leg's rectangle. -/
theorem legSpans.holds {w : Nat} {l : Leg} (spans : legSpans w l) {q : Point}
    (x : min l.start.x l.stop.x ≤ q.x ∧ q.x ≤ max l.start.x l.stop.x)
    (y : min l.start.y l.stop.y ≤ q.y ∧ q.y ≤ max l.start.y l.stop.y) {i j : Nat} (holds : (footprint w q).holds i j) :
    l.rect.holds i j := by
  rw [spans]
  exact footprint_holds_bound x y holds

/-- The path of a candidate over the floor: no leg, one leg from start to end, or two legs by a corner (R56, R57). -/
theorem candidateLegs_path {w : Nat} {hint : RouteHint} {a b : Point} {tx ty : Nat} {legs : List Leg}
    (member : legs ∈ candidateLegs w hint a b tx ty) :
    (a.x = b.x ∧ a.y = b.y ∧ legs = []) ∨
      (∃ l, legs = [l] ∧ legSpans w l ∧ l.start = a ∧ l.stop = b) ∨
      ∃ l k, legs = [l, k] ∧ legSpans w l ∧ legSpans w k ∧ l.start = a ∧ k.stop = b ∧ l.stop = k.start ∧
        ((l.axis = .x ∧ k.axis = .y ∧ k.start = ⟨b.x, a.y⟩) ∨ (l.axis = .y ∧ k.axis = .x ∧ k.start = ⟨a.x, b.y⟩)) := by
  obtain ⟨ax, ay⟩ := a
  obtain ⟨bx, by_⟩ := b
  unfold candidateLegs at member
  dsimp only at member
  by_cases x : ax = bx
  · by_cases y : ay = by_
    · rw [if_pos x, if_pos y] at member
      exact .inl ⟨x, y, by simpa using member⟩
    · rw [if_pos x, if_neg y] at member
      exact .inr (.inl ⟨_, List.mem_singleton.mp member, rfl, rfl, by rw [x]; rfl⟩)
  · by_cases y : ay = by_
    · rw [if_neg x, if_pos y] at member
      exact .inr (.inl ⟨_, List.mem_singleton.mp member, rfl, rfl, by rw [y]; rfl⟩)
    · rw [if_neg x, if_neg y] at member
      have shapes : legs = [legOf w .x ⟨ax, ay⟩ ⟨bx, ay⟩ tx, legOf w .y ⟨bx, ay⟩ ⟨bx, by_⟩ ty] ∨
          legs = [legOf w .y ⟨ax, ay⟩ ⟨ax, by_⟩ ty, legOf w .x ⟨ax, by_⟩ ⟨bx, by_⟩ tx] := by
        cases hint with
        | xFirst => exact .inl (List.mem_singleton.mp member)
        | yFirst => exact .inr (List.mem_singleton.mp member)
        | either => exact List.mem_pair.mp member
      rcases shapes with h | h
      · exact .inr (.inr ⟨_, _, h, rfl, rfl, rfl, rfl, rfl, .inl ⟨rfl, rfl, rfl⟩⟩)
      · exact .inr (.inr ⟨_, _, h, rfl, rfl, rfl, rfl, rfl, .inr ⟨rfl, rfl, rfl⟩⟩)

/-! ### The move of a plan with a chosen route (R65 to R67) -/

/-- A plan as built with a route chosen, to run with its own N or with a common one that is no less (R63, R64). -/
structure Routed (cfg : Configuration) (c : ShotContent) (p : Plan) : Prop where
  sane : ∀ a, 1 ≤ (cfg.axes.get a).speed
  built : BuiltFrom cfg c p
  chosen : ∃ i < p.candidates.length, p.chosen = some i
  long : p.duration ≤ p.common.getD p.duration

/-- Before its segment an axis stands at its start, after it at its target. -/
theorem setpointAt_ends {p : RunningPlan} {a : Axis} {m : Nat} {elapsed : Nat → Nat} (runs : SegmentRuns p a m elapsed)
    (leads : LeadsToTarget p.plan a) {t : Nat} (within : t ≤ moveEnd p) :
    (elapsed t = 0 → setpointAt p t a = p.plan.start.get a) ∧ (elapsed t = m → setpointAt p t a = p.plan.target.get a) := by
  rcases Nat.lt_trichotomy (p.plan.start.get a).toNat (p.plan.target.get a).toNat with up | same | down
  · refine ⟨fun begins => BitVec.eq_of_toNat_eq ?_, fun ends => BitVec.eq_of_toNat_eq ?_⟩
    · rw [setpointAt_up runs leads up within, begins, profileOffset_zero _ runs.long, Nat.add_zero]
    · rw [setpointAt_up runs leads up within, ends, profileOffset_end _ runs.long]
      omega
  · have still : setpointAt p t a = p.plan.start.get a := setpointAt_still (leads.1.trans (by unfold distanceOf; omega)) t
    exact ⟨fun _ => still, fun _ => still.trans (BitVec.eq_of_toNat_eq same)⟩
  · refine ⟨fun begins => BitVec.eq_of_toNat_eq ?_, fun ends => BitVec.eq_of_toNat_eq ?_⟩
    · rw [setpointAt_down runs leads down, begins, profileOffset_zero _ runs.long, Nat.sub_zero]
    · rw [setpointAt_down runs leads down, ends, profileOffset_end _ runs.long]
      omega

section
variable {cfg : Configuration} {c : ShotContent} {p : Plan} (h : Routed cfg c p) (live : Bool)
include h

theorem Routed.path : ∃ legs ∈ candidateLegs cfg.halfWidth c.routeHint (floorPoint p.start) (floorPoint p.target)
      (p.axisDuration.get .x) (p.axisDuration.get .y),
    chosenRoute p = splitRoute (p.common.getD p.duration) legs := by
  obtain ⟨i, inside, chosen⟩ := h.chosen
  exact h.built.chosen inside chosen

theorem Routed.shape : RouteShape p.start p.target (p.common.getD p.duration) (chosenRoute p) := by
  obtain ⟨legs, member, route⟩ := h.path
  rw [route, h.built.target]
  rw [h.built.target, h.built.axisDuration] at member
  exact candidateLegs_shape h.sane member (h.built.duration ▸ h.long)

theorem Routed.setpoints (a : Axis) :
    setpointAt (runningPlanOf p live) 0 a = p.start.get a ∧
      setpointAt (runningPlanOf p live) (moveEnd (runningPlanOf p live)) a = p.target.get a ∧
      ∀ t, t ≤ moveEnd (runningPlanOf p live) →
        min (p.start.get a).toNat (p.target.get a).toNat ≤ (setpointAt (runningPlanOf p live) t a).toNat ∧
        (setpointAt (runningPlanOf p live) t a).toNat ≤ max (p.start.get a).toNat (p.target.get a).toNat :=
  RouteShape.setpoints (run := runningPlanOf p live) h.shape h.built.leads (fun a moves => by
    have moves : (p.start.get a).toNat ≠ (p.target.get a).toNat := moves
    rw [h.built.target] at moves
    have own := (buildPlan_axisDuration_pos h.sane moves).trans (buildPlan_duration a)
    rw [← h.built.duration] at own
    exact own.trans h.long) a

theorem Routed.starts : setpointsAt (runningPlanOf p live) 0 = p.start :=
  PerAxis.ext_get fun a => by rw [setpointsAt, PerAxis.get_ofFn, (h.setpoints live a).1]

theorem Routed.arrives : setpointsAt (runningPlanOf p live) (moveEnd (runningPlanOf p live)) = p.target :=
  PerAxis.ext_get fun a => by rw [setpointsAt, PerAxis.get_ofFn, (h.setpoints live a).2.1]

/-- The end of leg 1 lies within the move. -/
theorem Routed.leg1End (two : twoLegs (runningPlanOf p live) = true) :
    0 < leg1End (runningPlanOf p live) ∧ leg1End (runningPlanOf p live) < moveEnd (runningPlanOf p live) := by
  have length : (chosenRoute p).legs.length = 2 := by simpa [twoLegs, runningPlanOf] using two
  show 0 < 256 * (chosenRoute p).n1 ∧ 256 * (chosenRoute p).n1 < 256 * p.common.getD p.duration
  cases h.shape with
  | none _ _ legs => simp [legs] at length
  | one l legs => simp [legs] at length
  | two l k legs first less => omega

theorem Routed.few : (chosenRoute p).legs.length ≤ 2 := by
  cases h.shape with
  | none _ _ legs => simp [legs]
  | one l legs => simp [legs]
  | two l k legs => simp [legs]

/-- A move with a length of 0 has no legs (R67). -/
theorem Routed.zero (zero : p.common.getD p.duration = 0) : (chosenRoute p).legs = [] := by
  have still : ∀ a, p.start.get a = p.target.get a := fun a => by
    have arrives := (h.setpoints false a).2.1
    rw [show moveEnd (runningPlanOf p false) = 0 by show 256 * p.common.getD p.duration = 0; rw [zero],
      (h.setpoints false a).1] at arrives
    exact arrives
  obtain ⟨legs, member, route⟩ := h.path
  have same : floorPoint p.start = floorPoint p.target := by
    rw [floorPoint, floorPoint, show p.start.x = p.target.x from still .x, show p.start.y = p.target.y from still .y]
  rw [route, splitRoute_legs]
  simpa [candidateLegs, same] using member

/-- Where the footprint stands during a move: where it started, on the one leg, or on the leg of its time. -/
theorem Routed.floor {t : Nat} (within : t ≤ moveEnd (runningPlanOf p live)) :
    ((chosenRoute p).legs = [] ∧ floorPoint (setpointsAt (runningPlanOf p live) t) = floorPoint p.start) ∨
      (∃ l, (chosenRoute p).legs = [l] ∧ ∀ i j,
        (footprint cfg.halfWidth (floorPoint (setpointsAt (runningPlanOf p live) t))).holds i j → l.rect.holds i j) ∨
      ∃ l k, (chosenRoute p).legs = [l, k] ∧
        (t ≤ Machine.leg1End (runningPlanOf p live) → ∀ i j,
          (footprint cfg.halfWidth (floorPoint (setpointsAt (runningPlanOf p live) t))).holds i j → l.rect.holds i j) ∧
        (Machine.leg1End (runningPlanOf p live) ≤ t → ∀ i j,
          (footprint cfg.halfWidth (floorPoint (setpointsAt (runningPlanOf p live) t))).holds i j → k.rect.holds i j) := by
  obtain ⟨legs, member, route⟩ := h.path
  have own : (chosenRoute p).legs = legs := by rw [route, splitRoute_legs]
  have x := (h.setpoints live .x).2.2 t within
  have y := (h.setpoints live .y).2.2 t within
  have at_ : floorPoint (setpointsAt (runningPlanOf p live) t) =
      ⟨(setpointAt (runningPlanOf p live) t .x).toNat, (setpointAt (runningPlanOf p live) t .y).toNat⟩ := rfl
  have start : floorPoint p.start = ⟨(p.start.get .x).toNat, (p.start.get .y).toNat⟩ := rfl
  have target : floorPoint p.target = ⟨(p.target.get .x).toNat, (p.target.get .y).toNat⟩ := rfl
  rw [own, at_, start]
  rw [start, target] at member
  rcases candidateLegs_path member with ⟨sameX, sameY, rfl⟩ | ⟨l, rfl, spans, begins, ends⟩ |
      ⟨l, k, rfl, spansL, spansK, begins, ends, meet, corner⟩
  · refine .inl ⟨rfl, ?_⟩
    dsimp only at sameX sameY
    rw [Point.mk.injEq]
    omega
  · refine .inr (.inl ⟨l, rfl, fun i j holds => spans.holds ?_ ?_ holds⟩)
    · simpa only [begins, ends] using x
    · simpa only [begins, ends] using y
  · have axes : (l.axis = .x ∧ k.axis = .y) ∨ (l.axis = .y ∧ k.axis = .x) :=
      corner.imp (fun h => ⟨h.1, h.2.1⟩) fun h => ⟨h.1, h.2.1⟩
    have runs : (∀ a, l.axis = a → Machine.leg1End (runningPlanOf p live) ≤ t →
          setpointAt (runningPlanOf p live) t a = p.target.get a) ∧
        ∀ a, k.axis = a → t ≤ Machine.leg1End (runningPlanOf p live) →
          setpointAt (runningPlanOf p live) t a = p.start.get a := by
      cases h.shape with
      | none _ _ legs => simp [own] at legs
      | one _ legs => simp [own] at legs
      | two _ _ legs first less _ _ =>
        refine ⟨fun a axis later => ?_, fun a axis earlier => ?_⟩
        · have floor : a = .x ∨ a = .y := axis ▸ axes.imp And.left And.left
          exact (setpointAt_ends (segmentRuns_first (p := runningPlanOf p live) floor own axis first less.le) (h.built.leads a)
            within).2 (min_eq_right later)
        · have floor : a = .x ∨ a = .y := axis ▸ axes.symm.imp And.right And.right
          have other : l.axis ≠ a := by rcases axes with ⟨lx, ky⟩ | ⟨lx, ky⟩ <;> simp_all
          exact (setpointAt_ends (segmentRuns_second (p := runningPlanOf p live) floor own other axis less) (h.built.leads a)
            within).1 (Nat.sub_eq_zero_of_le earlier)
    refine .inr (.inr ⟨l, k, rfl, fun earlier i j holds => spansL.holds ?_ ?_ holds,
      fun later i j holds => spansK.holds ?_ ?_ holds⟩) <;>
    · rcases corner with ⟨lx, ky, at_⟩ | ⟨lx, ky, at_⟩ <;> simp_all

end

end Sys2Proof.Machine
end

section
/-! The floor agreement is the agreement by shapes with every peer tested: each direction, part by part (R33, R70, R84, R90). -/
namespace Sys2Proof.Machine

/-! ### Entries -/

theorem entryLegs_eq {e : CueEntry} {p : Plan} (plan : e.plan = some p) : entryLegs e = (chosenRoute p).legs := by
  simp [entryLegs, plan]

theorem Planned.toRouted {cfg : Configuration} {e : CueEntry} {c : ShotContent} {p : Plan} (h : Planned cfg e c p)
    (sane : ∀ a, 1 ≤ (cfg.axes.get a).speed) (past : e.stage ≠ .routing) : Routed cfg c p where
  sane := sane
  built := planFrom_iff.mp h.built
  chosen := h.routed past
  long := by
    cases common : p.common with
    | none => exact le_rfl
    | some n => exact (h.common n common).2

theorem headRunning_cons {s : State} {e : CueEntry} {rest : List CueEntry} (list : s.cues = e :: rest) :
    headRunning s = true ↔ e.stage = .running := by
  simp [headRunning, list]

/-- What the floor agreement says of an entry past QUEUED at a place. -/
theorem planned_of_plans {s : State} (plans : plansByStage s) {k : Nat} {e : CueEntry} (found : s.cues[k]? = some e)
    (past : e.stage ≠ .queued) :
    ∃ c p, Planned (configOf s) e c p ∧ (k = 0 → e.stage ≠ .running → p.start = s.port.lastSetpoint) ∧
      (k = 1 → ∃ h q, s.cues[0]? = some h ∧ h.plan = some q ∧ p.start = q.target) := by
  obtain ⟨c, p, copy, plan, built, range, unrouted, routed, legs, head, second, common⟩ := (plans k e found).2 past
  exact ⟨c, p, ⟨copy, plan, built, range, unrouted, routed, legs, common⟩, head, second⟩

theorem unread_of_place {s : State} (stages : stagesByPlace s) (plans : plansByStage s) {k : Nat} {e : CueEntry}
    (found : s.cues[k]? = some e) (later : 2 ≤ k ∨ (k = 1 ∧ headRunning s = false)) : Unread e := by
  obtain ⟨_, places, mode, _⟩ := stages.2.1 k e found
  have queued : e.stage = .queued := by
    by_contra past
    rcases places past with rfl | ⟨rfl, running⟩
    · omega
    · rcases later with later | ⟨_, still⟩
      · omega
      · simp [running] at still
  obtain ⟨copy, plan⟩ := (plans k e found).1 queued
  exact ⟨queued, copy, plan, mode⟩

/-! ### The shape of the list -/

theorem stageClaims_unread {e : CueEntry} (h : Unread e) (kind : ClaimKind) : stageClaims kind e = [] := by
  simp [stageClaims, h.queued]

theorem secondClaims_unread {rest : List CueEntry} (h : ∀ f ∈ rest, Unread f) : secondClaims rest = [] := by
  cases rest with
  | nil => rfl
  | cons f more => exact stageClaims_unread (h f (by simp)) _

theorem stageClaims_running {e : CueEntry} (running : e.stage = .running) (kind : ClaimKind) :
    stageClaims kind e = heldLegs kind (entryLegs e) := by
  simp [stageClaims, running]

section
variable {s : State} {e : CueEntry} {rest : List CueEntry} (list : s.cues = e :: rest) (on : onBus s = true)
include list on

/-- The claims expected of a list by its head and its second entry (R70). -/
theorem expectedClaims_cons : expectedClaims s =
    (if e.stage = .running ∧ entryLegs e ≠ [] then [] else [parkedClaim s]) ++
      ((stageClaims .leg e).filter fun o => !(s.profile.leg1Passed && o.leg == 1)) ++ secondClaims rest := by
  simp only [expectedClaims, on, if_true, list]
  cases rest <;> rfl

/-- The claims expected of a list whose head waits: PARKED and the head's rectangles (R70). -/
theorem expectedClaims_waiting (still : e.stage ≠ .running) (passed : s.profile.leg1Passed = false)
    (later : ∀ f ∈ rest, Unread f) : expectedClaims s = parkedClaim s :: stageClaims .leg e := by
  rw [expectedClaims_cons list on, secondClaims_unread later, if_neg (fun h => still h.1), passed]
  simp

/-- The claims expected of a list whose head runs: the head's, then the second entry's (R70). -/
theorem expectedClaims_running (running : e.stage = .running) :
    expectedClaims s = headClaims s e ++ secondClaims rest := by
  rw [expectedClaims_cons list on, stageClaims_running running]
  simp only [running, true_and, headClaims]

end

theorem shape_of_floor {s : State} (stages : stagesByPlace s) (plans : plansByStage s) (move : moveAgrees s)
    (own : s.claims.own = expectedClaims s) : ListShape s := by
  have off := stages.1
  have moving := stages.2.2
  cases list : s.cues with
  | nil =>
    have idle : s.profile.motion = .idle := by
      by_contra moves
      simpa [headRunning, list] using moving.mp moves
    rw [moveAgrees, if_pos idle] at move
    refine .empty list ⟨idle, move.1, move.2⟩ (own.trans ?_)
    simp only [expectedClaims, list]
  | cons e rest =>
    have on : onBus s = true := by
      by_contra notOn
      simpa [list] using (off (by simpa using notOn)).1
    have here : s.cues[0]? = some e := by rw [list]; rfl
    obtain ⟨_, _, mode, group⟩ := stages.2.1 0 e here
    have behind : ∀ {k : Nat} {f : CueEntry}, rest[k]? = some f → s.cues[k + 1]? = some f := fun found => by rw [list]; exact found
    by_cases running : e.stage = .running
    · have moves : s.profile.motion ≠ .idle := moving.mpr ((headRunning_cons list).mpr running)
      rw [moveAgrees, if_neg moves] at move
      obtain ⟨d, c, p, head, copy, plan, run, time, setpoint, passed⟩ := move
      obtain rfl : e = d := by simpa [list] using head
      obtain ⟨c', p', planned, _, _⟩ := planned_of_plans plans here (by simp [running])
      obtain rfl : c = c' := Option.some.inj (copy.symm.trans planned.copy)
      obtain rfl : p = p' := Option.some.inj (plan.symm.trans planned.plan)
      have later : Follows (configOf s) p.target rest := by
        cases rest with
        | nil => trivial
        | cons f more =>
          have second : s.cues[1]? = some f := behind (k := 0) rfl
          obtain ⟨place, _, modeF, groupF⟩ := stages.2.1 1 f second
          have early : ¬(f.stage = .groupWait ∨ f.stage = .running) := fun h => absurd (place h) (by decide)
          refine ⟨?_, fun h => early (.inl h), fun g mem => ?_⟩
          · by_cases queued : f.stage = .queued
            · obtain ⟨copy, plan⟩ := (plans 1 f second).1 queued
              exact .unread ⟨queued, copy, plan, modeF⟩
            · obtain ⟨c', p', planned', _, start⟩ := planned_of_plans plans second queued
              obtain ⟨h, q, head, plan', start⟩ := start rfl
              obtain rfl : e = h := by simpa [list] using head
              obtain rfl : p = q := Option.some.inj (plan.symm.trans plan')
              exact .planned c' p' queued (fun h => early (.inr h)) modeF groupF planned' start
          · obtain ⟨k, inside, rfl⟩ := List.getElem_of_mem mem
            exact unread_of_place stages plans (k := k + 2) (by simp [list, inside]) (.inl (by omega))
      refine .running e rest c p ⟨list, on, running, mode, planned, later, own.trans (expectedClaims_running list on running)⟩
        ⟨moves, run, time, setpoint, fun yes => ?_, fun no => ?_⟩
      · simpa [yes] using passed
      · simpa [no] using passed
    · have idle : s.profile.motion = .idle := by
        by_contra moves
        exact running ((headRunning_cons list).mp (moving.mp moves))
      rw [moveAgrees, if_pos idle] at move
      have notRunning : headRunning s = false := by
        rw [← Bool.not_eq_true, headRunning_cons list]
        exact running
      have later : ∀ f ∈ rest, Unread f := fun f mem => by
        obtain ⟨k, inside, rfl⟩ := List.getElem_of_mem mem
        refine unread_of_place stages plans (k := k + 1) (behind (List.getElem?_eq_getElem inside)) ?_
        rcases k with _ | k
        · exact .inr ⟨rfl, notRunning⟩
        · exact .inl (by omega)
      refine .waiting e rest list on ⟨idle, move.1, move.2⟩ ?_ later
        (own.trans (expectedClaims_waiting list on running move.2 later))
      by_cases queued : e.stage = .queued
      · obtain ⟨copy, plan⟩ := (plans 0 e here).1 queued
        exact .unread ⟨queued, copy, plan, mode⟩
      · obtain ⟨c, p, planned, start, _⟩ := planned_of_plans plans here queued
        exact .planned c p queued running mode group planned (start rfl running)

/-! ### The floor agreement from the shape -/

/-- What the floor agreement asks of one entry at a place (R31, R33, R42, R46, R62). -/
structure EntryRight (s : State) (k : Nat) (e : CueEntry) : Prop where
  head : e.stage = .groupWait ∨ e.stage = .running → k = 0
  place : e.stage ≠ .queued → k = 0 ∨ (k = 1 ∧ headRunning s = true)
  mode : modeRight e
  group : e.stage = .groupWait → e.mode = .group
  queued : e.stage = .queued → e.copy = none ∧ e.plan = none
  planned : e.stage ≠ .queued → ∃ c p, Planned (configOf s) e c p ∧
    (k = 0 → e.stage ≠ .running → p.start = s.port.lastSetpoint) ∧
    (k = 1 → ∃ h q, s.cues[0]? = some h ∧ h.plan = some q ∧ p.start = q.target)

theorem Unread.right {e : CueEntry} (h : Unread e) (s : State) (k : Nat) : EntryRight s k e where
  head := by simp [h.queued]
  place := fun past => absurd h.queued past
  mode := h.mode
  group := by simp [h.queued]
  queued := fun _ => ⟨h.copy, h.plan⟩
  planned := fun past => absurd h.queued past

theorem Waits.right_head {s : State} {e : CueEntry} (h : Waits (configOf s) s.port.lastSetpoint e) : EntryRight s 0 e := by
  cases h with
  | unread h => exact h.right s 0
  | planned c p past still mode group planned start =>
    exact ⟨fun _ => rfl, fun _ => .inl rfl, mode, group, fun queued => absurd queued past,
      fun _ => ⟨c, p, planned, fun _ _ => start, fun one => absurd one (by decide)⟩⟩

theorem Waits.still {cfg : Configuration} {starts : PerAxis Position} {e : CueEntry} (h : Waits cfg starts e) :
    e.stage ≠ .running := by
  cases h with
  | unread h => simp [h.queued]
  | planned _ _ _ still => exact still

section
variable {s : State} {e : CueEntry} {rest : List CueEntry} {c : ShotContent} {p : Plan} (h : RunsHead s e rest c p)
include h

theorem RunsHead.headRunning : headRunning s = true := (headRunning_cons h.list).mpr h.stage

theorem RunsHead.entryLegs : entryLegs e = (chosenRoute p).legs := entryLegs_eq h.planned.plan

theorem RunsHead.right : EntryRight s 0 e :=
  ⟨fun _ => rfl, fun _ => .inl rfl, h.mode, fun group => by simp [h.stage] at group, fun queued => by simp [h.stage] at queued,
    fun _ => ⟨c, p, h.planned, fun _ still => absurd h.stage still, fun one => absurd one (by decide)⟩⟩

theorem RunsHead.right_second {f : CueEntry} {more : List CueEntry} (list : rest = f :: more) : EntryRight s 1 f := by
  have second := h.second
  rw [list] at second
  obtain ⟨waits, notGroup, _⟩ := second
  cases waits with
  | unread h => exact h.right s 1
  | planned d q past still mode group planned start =>
    have head : s.cues[0]? = some e := by rw [h.list]; rfl
    exact ⟨fun h => absurd h (not_or.mpr ⟨notGroup, still⟩), fun _ => .inr ⟨rfl, h.headRunning⟩, mode, group,
      fun queued => absurd queued past,
      fun _ => ⟨d, q, planned, fun zero => absurd zero (by decide), fun _ => ⟨e, p, head, h.planned.plan, start⟩⟩⟩

end

/-- Every entry of a list of some shape is right at its place. -/
theorem ListShape.entries {s : State} (shape : ListShape s) {k : Nat} {e : CueEntry} (found : s.cues[k]? = some e) :
    EntryRight s k e := by
  cases shape with
  | empty list => simp [list] at found
  | waiting d rest list on still head later own =>
    rw [list] at found
    rcases k with _ | k
    · obtain rfl : d = e := by simpa using found
      exact head.right_head
    · exact (later e (List.mem_of_getElem? (i := k) found)).right s _
  | running d rest c p runs moves =>
    rw [runs.list] at found
    rcases k with _ | k
    · obtain rfl : d = e := by simpa using found
      exact runs.right
    · cases list : rest with
      | nil => simp [list] at found
      | cons f more =>
        rw [list] at found
        rcases k with _ | k
        · obtain rfl : f = e := by simpa using found
          exact runs.right_second list
        · have second := runs.second
          rw [list] at second
          exact (second.2.2 e (List.mem_of_getElem? (i := k) found)).right s _

theorem ListShape.offBus {s : State} (shape : ListShape s) (off : onBus s = false) :
    s.cues = [] ∧ s.claims.own = [] ∧ s.profile.motion = .idle := by
  cases shape with
  | empty list still own => exact ⟨list, by simpa [off] using own, still.motion⟩
  | waiting e rest list on => simp [off] at on
  | running e rest c p runs => exact absurd runs.on (by simp [off])

theorem ListShape.moving {s : State} (shape : ListShape s) : s.profile.motion ≠ .idle ↔ headRunning s = true := by
  cases shape with
  | empty list still => simp [headRunning, list, still.motion]
  | waiting e rest list on still head =>
    have notRunning := head.still
    rw [headRunning_cons list]
    simp [still.motion, notRunning]
  | running e rest c p runs moves => simp [runs.headRunning, moves.motion]

theorem ListShape.moveAgrees {s : State} (shape : ListShape s) : moveAgrees s := by
  have of_still : Still s → Machine.moveAgrees s := fun still => by
    rw [Machine.moveAgrees, if_pos still.motion]
    exact ⟨still.plan, still.leg1Passed⟩
  cases shape with
  | empty _ still => exact of_still still
  | waiting _ _ _ _ still => exact of_still still
  | running e rest c p runs moves =>
    rw [Machine.moveAgrees, if_neg moves.motion]
    refine ⟨e, c, p, by rw [runs.list]; rfl, runs.planned.copy, runs.planned.plan, moves.plan, moves.time, moves.setpoint, ?_⟩
    cases passed : s.profile.leg1Passed with
    | true => exact moves.passed passed
    | false => exact moves.before passed

theorem ListShape.expected {s : State} (shape : ListShape s) : s.claims.own = expectedClaims s := by
  cases shape with
  | empty list still own => rw [own]; simp only [expectedClaims, list]
  | waiting e rest list on still head later own =>
    have notRunning := head.still
    rw [own, expectedClaims_waiting list on notRunning still.leg1Passed later]
  | running e rest c p runs moves => rw [runs.own, expectedClaims_running runs.list runs.on runs.stage]

/-! ### The size of the own claim set, and the floor it holds (R70, R90) -/

theorem heldLegs_length (kind : ClaimKind) (legs : List Leg) : (heldLegs kind legs).length = legs.length := by
  simp [heldLegs]

theorem stageClaims_length (kind : ClaimKind) (e : CueEntry) : (stageClaims kind e).length ≤ (entryLegs e).length := by
  unfold stageClaims
  split <;> simp [heldLegs, pendingClaims]

/-- An entry claims at most two rectangles. -/
theorem Waits.few {cfg : Configuration} {starts : PerAxis Position} {e : CueEntry} (h : Waits cfg starts e)
    (sane : ∀ a, 1 ≤ (cfg.axes.get a).speed) (kind : ClaimKind) : (stageClaims kind e).length ≤ 2 := by
  cases h with
  | unread h => simp [stageClaims_unread h]
  | planned c p past still mode group planned start =>
    by_cases routing : e.stage = .routing
    · simp [stageClaims, routing]
    · refine (stageClaims_length kind e).trans ?_
      rw [entryLegs_eq planned.plan]
      exact (planned.toRouted sane routing).few

theorem Agrees.few {P : Nat → Prop} {s : State} (h : Agrees P s) : s.claims.own.length ≤ 4 := by
  cases h.shape with
  | empty list still own => rw [own]; split <;> simp
  | waiting e rest list on still head later own =>
    have few := head.few h.sane .leg
    rw [own, List.length_cons]
    omega
  | running e rest c p runs moves =>
    have routed := runs.planned.toRouted h.sane (by simp [runs.stage])
    have second : (secondClaims rest).length ≤ 2 := by
      cases list : rest with
      | nil => simp [secondClaims]
      | cons f more =>
        have follows := runs.second
        rw [list] at follows
        exact follows.1.few h.sane .nextLeg
    have head : (headClaims s e).length ≤ 2 := by
      rw [headClaims, List.length_append]
      have legs := (List.length_filter_le (fun o => !(s.profile.leg1Passed && o.leg == 1)) (heldLegs .leg (entryLegs e)))
      rw [heldLegs_length] at legs
      have few := routed.few
      rw [← runs.entryLegs] at few
      by_cases none : entryLegs e = []
      · simp [none, heldLegs]
      · rw [if_pos none]
        simp only [List.length_nil]
        omega
    rw [runs.own, List.length_append]
    omega

theorem parkedClaim_holds {s : State} {i j : Nat}
    (holds : (footprint (configOf s).halfWidth (floorPoint s.port.lastSetpoint)).holds i j)
    (mem : parkedClaim s ∈ s.claims.own) : ∃ o ∈ s.claims.own, o.claim.state = .held ∧ o.claim.rect.holds i j :=
  ⟨_, mem, rfl, holds⟩

/-- The pedestal stands on floor it holds: PARKED where it stands, or the leg it is on (R90). -/
theorem Agrees.stands {P : Nat → Prop} {s : State} (h : Agrees P s) (on : onBus s = true) : standsOnHeldFloor s := by
  intro i j holds
  cases h.shape with
  | empty list still own => exact parkedClaim_holds holds (by rw [own, if_pos on]; simp)
  | waiting e rest list on still head later own => exact parkedClaim_holds holds (by rw [own]; simp)
  | running e rest c p runs moves =>
    have routed := runs.planned.toRouted h.sane (by simp [runs.stage])
    have legs := runs.entryLegs
    have leg : ∀ {l : Leg} {n : Nat}, (⟨⟨l.rect, .leg, .held⟩, n⟩ : OwnClaim) ∈ headClaims s e → l.rect.holds i j →
        ∃ o ∈ s.claims.own, o.claim.state = .held ∧ o.claim.rect.holds i j := fun mem holds =>
      ⟨_, by rw [runs.own]; exact List.mem_append_left _ mem, rfl, holds⟩
    have here := routed.floor c.livePermitted moves.time.le
    rw [moves.setpoint] at holds
    rcases here with ⟨none, _⟩ | ⟨l, one, covers⟩ | ⟨l, k, two, first, second⟩
    · refine parkedClaim_holds (moves.setpoint ▸ holds) ?_
      rw [runs.own, headClaims, legs, none]
      simp
    · refine leg (l := l) (n := 1) ?_ (covers i j holds)
      have unpassed : s.profile.leg1Passed = false := by
        by_contra passed
        have two := (moves.passed (by simpa using passed)).1
        simp [twoLegs, runningPlanOf, one] at two
      simp [headClaims, legs, one, heldLegs, unpassed]
    · cases passed : s.profile.leg1Passed with
      | false =>
        have before := moves.before passed (by simp [twoLegs, runningPlanOf, two])
        exact leg (l := l) (n := 1) (by simp [headClaims, legs, two, heldLegs, passed]) (first before.le i j holds)
      | true =>
        exact leg (l := k) (n := 2) (by simp [headClaims, legs, two, heldLegs, passed])
          (second (moves.passed passed).2 i j holds)

end Sys2Proof.Machine
end

section
/-! The group clause of the floor agreement in its two parts, records and READY FIFO (R97, R101 to R105), and the floor agreement
as a whole. -/
namespace Sys2Proof.Machine

/-! ### Groups -/

theorem waiterOf_iff {s : State} {g : Byte} {n : Nat} :
    waiterOf s.cues = some (g, n) ↔ waitsInGroup g s ∧ n = headDuration s := by
  unfold waitsInGroup headDuration
  cases s.cues with
  | nil => simp [waiterOf]
  | cons e rest =>
    by_cases waits : e.stage = .groupWait
    · cases group : e.group with
      | none => simp [waiterOf, waits, group]
      | some k => simp [waiterOf, waits, group, eq_comm]
    · simp [waiterOf, waits]

theorem groupParts_fst (cues : List CueEntry) : (groupParts cues).map Prod.fst = cues.filterMap CueEntry.group := by
  rw [groupParts, List.map_filterMap]
  congr 1
  funext e
  cases e.group <;> rfl

theorem mem_groupParts {cues : List CueEntry} {x : Byte × GroupPhase} :
    x ∈ groupParts cues ↔ ∃ e ∈ cues, e.group = some x.1 ∧ groupPhase e.stage = x.2 := by
  obtain ⟨g, phase⟩ := x
  simp [groupParts]

/-- What the record of a GROUP entry asks of its stage. -/
theorem fits_iff (e : CueEntry) (r : GroupRecord) : (groupPhase e.stage).fits r.state ↔
    match e.stage with
    | .running => r.state = .ended
    | .groupWait => r.state ≠ .ended
    | .queued => r.state = .collecting
    | .routing => r.state = .collecting
    | .claiming => r.state = .collecting
    | .claimed => r.state = .collecting := by
  cases e.stage <;> exact Iff.rfl

theorem sendingOf_iff {s : State} {r : QueuedReady} :
    sendingOf s = some r ↔ ∃ x, s.bus.transmission = some x ∧ x.frame = .ready r := by
  unfold sendingOf
  cases s.bus.transmission with
  | none => simp
  | some x => cases frame : x.frame <;> simp [frame]

theorem readySent_sendingOf (s : State) : readySent s = if (sendingOf s).isSome then 1 else 0 := by
  unfold readySent readyInTransmission sendingOf
  cases s.bus.transmission with
  | none => rfl
  | some x => cases frame : x.frame <;> simp [frame]

theorem groupsAgree_iff (s : State) : groupsAgree s ↔
    RecordsRight s.control.number (groupParts s.cues) (waiterOf s.cues) s.groups.records s.groups.waitTimer ∧
      FifoRight s.control.number (waiterOf s.cues) s.groups.records s.bus.readyFifo (sendingOf s) := by
  constructor
  · rintro ⟨distinct, single, owned, records, waits, one, queued, head, clean⟩
    refine ⟨⟨distinct, by rwa [groupParts_fst], fun x mem => ?_, fun r mem => (records r mem).1,
      fun r mem collecting m slot own n g ready => waiterOf_iff.mpr ((records r mem).2 collecting m slot own n g ready),
      fun wait => ?_⟩, ⟨one, fun q mem => ?_, fun r sent => ?_, readySent_sendingOf s ▸ clean⟩⟩
    · obtain ⟨e, mem, group, phase⟩ := mem_groupParts.mp mem
      obtain ⟨r, mem, same, fits⟩ := owned e mem x.1 group
      exact ⟨r, mem, same, phase ▸ (fits_iff e r).mpr fits⟩
    · obtain ⟨r, mem, collecting, waiting⟩ := waits wait
      exact ⟨r, mem, collecting, _, waiterOf_iff.mpr ⟨waiting, rfl⟩⟩
    · obtain ⟨waiting, own, record⟩ := queued q mem
      exact ⟨waiterOf_iff.mpr ⟨waiting, own⟩, record⟩
    · obtain ⟨x, sending, frame⟩ := sendingOf_iff.mp sent
      exact head x r sending frame
  · rintro ⟨⟨distinct, single, owned, slot, recorded, waits⟩, ⟨one, queued, head, clean⟩⟩
    refine ⟨distinct, by rwa [← groupParts_fst], fun e mem g group => ?_, fun r mem => ⟨slot r mem,
      fun collecting m slot own n g ready => waiterOf_iff.mp (recorded r mem collecting m slot own n g ready)⟩,
      fun wait => ?_, one, fun q mem => ?_, fun x r sending frame => head r (sendingOf_iff.mpr ⟨x, sending, frame⟩),
      readySent_sendingOf s ▸ clean⟩
    · obtain ⟨r, mem, same, fits⟩ := owned (g, groupPhase e.stage) (mem_groupParts.mpr ⟨e, mem, group, rfl⟩)
      exact ⟨r, mem, same, (fits_iff e r).mp fits⟩
    · obtain ⟨r, mem, collecting, n, waiter⟩ := waits wait
      exact ⟨r, mem, collecting, (waiterOf_iff.mp waiter).1⟩
    · obtain ⟨waiter, record⟩ := queued q mem
      obtain ⟨waiting, own⟩ := waiterOf_iff.mp waiter
      exact ⟨waiting, own, record⟩

/-! ### The floor agreement -/

/-- A configuration that passed the check, or none, lets every axis move (R177). -/
theorem sane_of_checked {s : State}
    (checked : ∀ cfg, s.control.config = some cfg → ∃ number image, checkConfiguration number image = some cfg) (a : Axis) :
    1 ≤ ((configOf s).axes.get a).speed := by
  rw [configOf]
  cases config : s.control.config with
  | none => simp [noConfiguration]
  | some cfg =>
    obtain ⟨number, image, passes⟩ := checked cfg config
    unfold checkConfiguration at passes
    split at passes
    · rename_i valid
      obtain rfl := Option.some.inj passes
      simp only [valuesInRange, Bool.and_eq_true, List.all_eq_true, axisLimitsValid, decide_eq_true_eq] at valid
      obtain ⟨_, ⟨⟨⟨⟨⟨⟨⟨each, _⟩, _⟩, _⟩, _⟩, _⟩, _⟩, _⟩⟩ := valid
      exact (each a (Axis.mem_all a)).1.1.2
    · cases passes

/-- What the floor agreement asks of station control and the axis port while the part hears. -/
structure StationRight (s : State) : Prop where
  checked : ∀ cfg, s.control.config = some cfg → ∃ number image, checkConfiguration number image = some cfg
  online : s.control.station ≠ .offline → s.control.config ≠ none ∧ s.control.readEnded = true ∧ s.port.exchange ≠ none
  peers : peersRight s

theorem floorAgreement_iff {s : State} (hearing : hears s) :
    floorAgreement s ↔ StationRight s ∧ Agrees (fun _ => True) s := by
  have phase : s.control.phase = .hearing := hearing
  rw [floorAgreement]
  simp only [phase]
  constructor
  · rintro ⟨checked, online, peers, stages, plans, groups, move, own, _, ⟨ascending, overlap⟩, _⟩
    obtain ⟨records, fifo⟩ := (groupsAgree_iff s).mp groups
    refine ⟨⟨checked, online, peers⟩, ⟨⟨sane_of_checked checked, peers.2.1, records, fifo,
      fun off => ⟨(stages.1 off).2.1, (stages.1 off).2.2.1⟩, ascending, fun n mem => ?_, fun n _ => overlap n⟩, shape_of_floor stages plans move own⟩⟩
    obtain ⟨p, mem, number, _⟩ := (overlap n).mp mem
    exact ⟨p, mem, number⟩
  · rintro ⟨⟨checked, online, peers⟩, agrees⟩
    have shape := agrees.shape
    refine ⟨checked, online, peers, ⟨fun off => ?_, fun k e found => ?_, shape.moving⟩, fun k e found => ?_,
      (groupsAgree_iff s).mpr ⟨agrees.records, agrees.fifo⟩, shape.moveAgrees, shape.expected, agrees.few,
      ⟨agrees.ascending, fun n => agrees.exact n trivial⟩, agrees.stands⟩
    · obtain ⟨list, own, motion⟩ := shape.offBus off
      obtain ⟨records, fifo⟩ := agrees.offBus off
      exact ⟨list, records, fifo, own, motion⟩
    · have right := shape.entries found
      exact ⟨right.head, right.place, right.mode, right.group⟩
    · have right := shape.entries found
      refine ⟨right.queued, fun past => ?_⟩
      obtain ⟨c, p, planned, head, second⟩ := right.planned past
      exact ⟨c, p, planned.copy, planned.plan, planned.built, planned.range, planned.unrouted, planned.routed, planned.legs,
        head, second, planned.common⟩

end Sys2Proof.Machine
end

section
/-! What the agreement reads of a state (`floorView`): two states with one view agree alike. The shared operations that leave the
view alone (markers, reports, flags, blanking, timers, the kind of a stop) are listed here once. -/
namespace Sys2Proof.Machine

/-! ### The core of an entry -/

/-- What the agreement reads of an entry: not its tag, its record's number, its take flag and what is to be reported of it. -/
def cueCore (e : CueEntry) : CueEntry :=
  { e with tag := 0, shot := 0, take := false, deferralReported := false, ending := none }

/-- Two entries that the agreement does not tell apart. -/
structure SameCore (e f : CueEntry) : Prop where
  priority : f.priority = e.priority
  mode : f.mode = e.mode
  group : f.group = e.group
  stage : f.stage = e.stage
  retry : f.retry = e.retry
  copy : f.copy = e.copy
  plan : f.plan = e.plan

theorem sameCore_iff {e f : CueEntry} : cueCore f = cueCore e ↔ SameCore e f := by
  constructor
  · intro h
    simp only [cueCore, CueEntry.mk.injEq] at h
    obtain ⟨_, _, priority, mode, group, _, stage, retry, copy, plan, _⟩ := h
    exact ⟨priority, mode, group, stage, retry, copy, plan⟩
  · rintro ⟨priority, mode, group, stage, retry, copy, plan⟩
    simp only [cueCore, priority, mode, group, stage, retry, copy, plan]

section
variable {e f : CueEntry} (same : SameCore e f)
include same

theorem SameCore.entryLegs : entryLegs f = entryLegs e := by rw [Machine.entryLegs, same.plan]; rfl

theorem SameCore.stageClaims (kind : ClaimKind) : stageClaims kind f = stageClaims kind e := by
  simp only [Machine.stageClaims, same.stage, same.priority, same.retry, same.entryLegs]

theorem SameCore.modeRight (h : modeRight e) : modeRight f := by
  rw [Machine.modeRight, same.mode, same.group]
  exact h

theorem SameCore.unread (h : Unread e) : Unread f :=
  ⟨same.stage.trans h.queued, same.copy.trans h.copy, same.plan.trans h.plan, same.modeRight h.mode⟩

theorem SameCore.planned {cfg : Configuration} {c : ShotContent} {p : Plan} (h : Planned cfg e c p) : Planned cfg f c p where
  copy := same.copy.trans h.copy
  plan := same.plan.trans h.plan
  built := h.built
  range := h.range
  unrouted := same.stage ▸ h.unrouted
  routed := same.stage ▸ h.routed
  legs := by rw [same.stage, same.entryLegs]; exact h.legs
  common := by rw [same.stage]; exact h.common

theorem SameCore.waits {cfg : Configuration} {starts : PerAxis Position} (h : Waits cfg starts e) : Waits cfg starts f := by
  cases h with
  | unread h => exact .unread (same.unread h)
  | planned c p past still mode group planned start =>
    exact .planned c p (by rwa [same.stage]) (by rwa [same.stage]) (same.modeRight mode) (by rwa [same.stage, same.mode])
      (same.planned planned) start

end

theorem sameCore_rest {l m : List CueEntry} (same : m.map cueCore = l.map cueCore) (h : ∀ f ∈ l, Unread f) : ∀ f ∈ m, Unread f := by
  intro f mem
  have core : cueCore f ∈ l.map cueCore := same ▸ List.mem_map_of_mem mem
  obtain ⟨e, mem, core⟩ := List.mem_map.mp core
  exact (sameCore_iff.mp core.symm).unread (h e mem)

theorem sameCore_cons {l m : List CueEntry} {e : CueEntry} (same : m.map cueCore = (e :: l).map cueCore) :
    ∃ f rest, m = f :: rest ∧ SameCore e f ∧ rest.map cueCore = l.map cueCore := by
  cases m with
  | nil => simp at same
  | cons f rest =>
    rw [List.map_cons, List.map_cons, List.cons.injEq] at same
    exact ⟨f, rest, rfl, sameCore_iff.mp same.1, same.2⟩

theorem follows_core {cfg : Configuration} {starts : PerAxis Position} {l m : List CueEntry}
    (same : m.map cueCore = l.map cueCore) (h : Follows cfg starts l) : Follows cfg starts m := by
  cases l with
  | nil =>
    obtain rfl : m = [] := by simpa using same
    trivial
  | cons e l =>
    obtain ⟨f, rest, rfl, core, more⟩ := sameCore_cons same
    obtain ⟨waits, notGroup, later⟩ := h
    exact ⟨core.waits waits, by rwa [core.stage], sameCore_rest more later⟩

theorem secondClaims_core {l m : List CueEntry} (same : m.map cueCore = l.map cueCore) : secondClaims m = secondClaims l := by
  cases l with
  | nil =>
    obtain rfl : m = [] := by simpa using same
    rfl
  | cons e l =>
    obtain ⟨f, rest, rfl, core, _⟩ := sameCore_cons same
    exact core.stageClaims _

/-- A function of the entries that reads their core alone gives the same on lists with one core. -/
theorem map_core {α : Type} {f : CueEntry → α} (reads : ∀ e, f (cueCore e) = f e) {l m : List CueEntry}
    (same : m.map cueCore = l.map cueCore) : m.map f = l.map f := by
  have through : ∀ l : List CueEntry, l.map f = (l.map cueCore).map f := fun l => by
    rw [List.map_map]
    exact List.map_congr_left fun e _ => (reads e).symm
  rw [through m, through l, same]

theorem groupParts_core {l m : List CueEntry} (same : m.map cueCore = l.map cueCore) : groupParts m = groupParts l := by
  have through : ∀ l : List CueEntry, groupParts l = (l.map fun e => (e.group, e.stage)).filterMap fun x =>
      x.1.map fun g => (g, groupPhase x.2) := fun l => by
    rw [groupParts, List.filterMap_map]
    rfl
  rw [through m, through l, map_core (f := fun e => (e.group, e.stage)) (fun _ => rfl) same]

theorem waiterOf_core {l m : List CueEntry} (same : m.map cueCore = l.map cueCore) : waiterOf m = waiterOf l := by
  cases l with
  | nil =>
    obtain rfl : m = [] := by simpa using same
    rfl
  | cons e l =>
    obtain ⟨f, rest, rfl, core, _⟩ := sameCore_cons same
    simp only [waiterOf, core.stage, core.group, ownDuration, core.plan]

/-! ### The view -/

/-- What the agreement reads of a state. -/
structure FloorView where
  onBus : Bool
  number : Nat
  config : Configuration
  setpoint : PerAxis Position
  fifo : List QueuedReady
  sending : Option QueuedReady
  peers : List PeerEntry
  cues : List CueEntry
  own : List OwnClaim
  overlap : List Nat
  records : List GroupRecord
  wait : Bool
  moving : Bool
  plan : Option RunningPlan
  time : Nat
  passed : Bool

def floorView (s : State) : FloorView where
  onBus := onBus s
  number := s.control.number
  config := configOf s
  setpoint := s.port.lastSetpoint
  fifo := s.bus.readyFifo
  sending := sendingOf s
  peers := s.peers
  cues := s.cues.map cueCore
  own := s.claims.own
  overlap := s.claims.overlap
  records := s.groups.records
  wait := s.groups.waitTimer
  moving := moveExists s
  plan := s.profile.plan
  time := s.profile.time
  passed := s.profile.leg1Passed

theorem moveExists_iff (s : State) : moveExists s = true ↔ s.profile.motion ≠ .idle := by simp [moveExists]

section
variable {s t : State} (same : floorView t = floorView s)
include same

theorem view_onBus : onBus t = onBus s := congrArg FloorView.onBus same
theorem view_number : t.control.number = s.control.number := congrArg FloorView.number same
theorem view_config : configOf t = configOf s := congrArg FloorView.config same
theorem view_setpoint : t.port.lastSetpoint = s.port.lastSetpoint := congrArg FloorView.setpoint same
theorem view_fifo : t.bus.readyFifo = s.bus.readyFifo := congrArg FloorView.fifo same
theorem view_sending : sendingOf t = sendingOf s := congrArg FloorView.sending same
theorem view_peers : t.peers = s.peers := congrArg FloorView.peers same
theorem view_cues : t.cues.map cueCore = s.cues.map cueCore := congrArg FloorView.cues same
theorem view_own : t.claims.own = s.claims.own := congrArg FloorView.own same
theorem view_overlap : t.claims.overlap = s.claims.overlap := congrArg FloorView.overlap same
theorem view_records : t.groups.records = s.groups.records := congrArg FloorView.records same
theorem view_wait : t.groups.waitTimer = s.groups.waitTimer := congrArg FloorView.wait same
theorem view_plan : t.profile.plan = s.profile.plan := congrArg FloorView.plan same
theorem view_time : t.profile.time = s.profile.time := congrArg FloorView.time same
theorem view_passed : t.profile.leg1Passed = s.profile.leg1Passed := congrArg FloorView.passed same

theorem view_moving : t.profile.motion ≠ .idle ↔ s.profile.motion ≠ .idle := by
  rw [← moveExists_iff, ← moveExists_iff, show moveExists t = moveExists s from congrArg FloorView.moving same]

theorem view_parkedClaim : parkedClaim t = parkedClaim s := by rw [parkedClaim, view_config same, view_setpoint same]; rfl

theorem view_still (h : Still s) : Still t :=
  ⟨not_not.mp fun moves => (view_moving same).mp moves h.motion, (view_plan same).trans h.plan,
    (view_passed same).trans h.leg1Passed⟩

theorem view_moves {c : ShotContent} {p : Plan} (h : Moves s c p) : Moves t c p where
  motion := (view_moving same).mpr h.motion
  plan := (view_plan same).trans h.plan
  time := view_time same ▸ h.time
  setpoint := by rw [view_setpoint same, view_time same]; exact h.setpoint
  passed := by rw [view_passed same, view_time same]; exact h.passed
  before := by rw [view_passed same, view_time same]; exact h.before

theorem view_runs {e : CueEntry} {rest : List CueEntry} {c : ShotContent} {p : Plan} (h : RunsHead s e rest c p) :
    ∃ f more, RunsHead t f more c p := by
  obtain ⟨f, more, list, core, later⟩ := sameCore_cons (by rw [view_cues same, h.list])
  refine ⟨f, more, list, (view_onBus same).trans h.on, core.stage.trans h.stage, core.modeRight h.mode,
    view_config same ▸ core.planned h.planned, view_config same ▸ follows_core later h.second, ?_⟩
  rw [view_own same, h.own, secondClaims_core later, headClaims, headClaims, core.entryLegs, view_parkedClaim same,
    view_passed same]

theorem view_shape (h : ListShape s) : ListShape t := by
  cases h with
  | empty list still own =>
    have none : t.cues = [] := by simpa [list] using view_cues same
    exact .empty none (view_still same still) (by rw [view_own same, own, view_onBus same, view_parkedClaim same])
  | waiting e rest list on still head later own =>
    obtain ⟨f, more, list', core, behind⟩ := sameCore_cons (by rw [view_cues same, list])
    exact .waiting f more list' ((view_onBus same).trans on) (view_still same still)
      (by rw [view_config same, view_setpoint same]; exact core.waits head) (sameCore_rest behind later)
      (by rw [view_own same, own, view_parkedClaim same, core.stageClaims])
  | running e rest c p runs moves =>
    obtain ⟨f, more, runs'⟩ := view_runs same runs
    exact .running f more c p runs' (view_moves same moves)

theorem view_planFootprint (k : Nat) : planFootprint k t = planFootprint k s := by
  have plans : t.cues.map CueEntry.plan = s.cues.map CueEntry.plan := map_core (fun _ => rfl) (view_cues same)
  have through : ∀ u : State, u.cues[k]?.bind CueEntry.plan = ((u.cues.map CueEntry.plan)[k]?).bind id := fun u => by
    rw [List.getElem?_map]
    cases u.cues[k]? <;> rfl
  rw [planFootprint, planFootprint, through t, through s, plans]

theorem view_heldClaims : heldClaims t = heldClaims s := by rw [heldClaims, view_own same]; rfl

end

/-- The overlap test of a peer reads the HELD own rectangles and the footprints of the first two plans (R84). -/
theorem peerOverlaps_congr {s t : State} (held : heldClaims t = heldClaims s)
    (exempt : ∀ o ∈ heldClaims t, exemptFor o t = exemptFor o s) (p : PeerEntry) : peerOverlaps p t = peerOverlaps p s := by
  have any : ∀ c : Claim, ((heldClaims t).any fun o => meetsOutside o.claim.rect c.rect (exemptFor o t)) =
      (heldClaims s).any fun o => meetsOutside o.claim.rect c.rect (exemptFor o s) := fun c => by
    rw [← held, Bool.eq_iff_iff, List.any_eq_true, List.any_eq_true]
    constructor
    · rintro ⟨o, mem, meets⟩
      exact ⟨o, mem, exempt o mem ▸ meets⟩
    · rintro ⟨o, mem, meets⟩
      exact ⟨o, mem, (exempt o mem).symm ▸ meets⟩
  simp only [peerOverlaps, any]

theorem exemptFor_congr {s t : State} (footprint : ∀ k, planFootprint k t = planFootprint k s) (o : OwnClaim) :
    exemptFor o t = exemptFor o s := by
  unfold exemptFor
  cases o.claim.kind <;> simp [footprint]

theorem Around.congr {P : Nat → Prop} {s t : State} (same : floorView t = floorView s) (h : Around P s) : Around P t where
  sane := by rw [view_config same]; exact h.sane
  numbers := by rw [view_peers same]; exact h.numbers
  records := by
    rw [view_number same, groupParts_core (view_cues same), waiterOf_core (view_cues same), view_records same,
      view_wait same]
    exact h.records
  fifo := by
    rw [view_number same, waiterOf_core (view_cues same), view_records same, view_fifo same, view_sending same]
    exact h.fifo
  offBus := by rw [view_onBus same, view_records same, view_fifo same]; exact h.offBus
  ascending := by rw [view_overlap same]; exact h.ascending
  known := by rw [view_overlap same, view_peers same]; exact h.known
  exact n tested := by
    rw [view_overlap same, view_peers same, h.exact n tested]
    simp only [peerOverlaps_congr (view_heldClaims same) fun o _ => exemptFor_congr (view_planFootprint same) o]

/-- States with one view agree alike. -/
theorem Agrees.congr {P : Nat → Prop} {s t : State} (same : floorView t = floorView s) (h : Agrees P s) : Agrees P t :=
  ⟨h.toAround.congr same, view_shape same h.shape⟩

/-! ### What leaves the view alone -/

/-- The frame in transmission decides which READY is being sent. -/
theorem sendingOf_congr {s t : State}
    (same : t.bus.transmission.map Transmission.frame = s.bus.transmission.map Transmission.frame) :
    sendingOf t = sendingOf s := by
  have frame : ∀ u : State, sendingOf u = (u.bus.transmission.map Transmission.frame).bind fun f =>
      match f with
      | .ready r => some r
      | _ => none := fun u => by
    unfold sendingOf
    cases u.bus.transmission with
    | none => rfl
    | some x => rfl
  rw [frame t, frame s, same]

@[simp] theorem floorView_setMarker (s : State) : floorView (setMarker s) = floorView s := by
  rw [setMarker_eq]
  rfl

/-- The bus interface is seen by its READY FIFO and the frame in transmission. -/
theorem floorView_bus (s : State) {b : BusInterface} (fifo : b.readyFifo = s.bus.readyFifo)
    (sent : b.transmission.map Transmission.frame = s.bus.transmission.map Transmission.frame) :
    floorView { s with bus := b } = floorView s := by
  have sending : sendingOf { s with bus := b } = sendingOf s := sendingOf_congr sent
  simp only [floorView, sending, fifo]
  rfl

@[simp] theorem floorView_pushReport (r : Report) (s : State) : floorView (pushReport r s) = floorView s := by
  rw [pushReport_eq]
  exact floorView_bus s (busAfterReport_readyFifo r _) (busAfterReport_transmission r _)

@[simp] theorem floorView_reportCue (tag : Byte) (o : CueOutcome) (s : State) : floorView (reportCue tag o s) = floorView s :=
  floorView_pushReport _ s

@[simp] theorem floorView_reportStore (shot : Byte) (o : StoreOutcome) (s : State) :
    floorView (reportStore shot o s) = floorView s := floorView_pushReport _ s

@[simp] theorem floorView_raiseFlags (c : FaultClass) (n : FaultName) (s : State) :
    floorView (raiseFlags c n s) = floorView s := by
  rw [raiseFlags_eq]
  exact floorView_bus s (busAfterRaise_readyFifo c n s) (busAfterRaise_transmission c n s)

@[simp] theorem floorView_endSpent (s : State) : floorView (endSpent s) = floorView s := rfl

@[simp] theorem floorView_retarget (before after : State) : floorView (retarget before after) = floorView after := by
  unfold retarget
  split <;> rfl

@[simp] theorem floorView_startClaimWait (p : Plan) (s : State) : floorView (startClaimWait p s) = floorView s := by
  rw [startClaimWait_eq]
  rfl

/-- An entry changed in what the agreement does not read. -/
theorem floorView_modifyCue (k : Nat) {f : CueEntry → CueEntry} (core : ∀ e, cueCore (f e) = cueCore e) (s : State) :
    floorView (modifyCue k f s) = floorView s := by
  have same : (s.cues.modify k f).map cueCore = s.cues.map cueCore := by
    refine List.ext_getElem? fun i => ?_
    rw [List.getElem?_map, List.getElem?_modify, List.getElem?_map]
    cases s.cues[i]? with
    | none => split <;> rfl
    | some e => split <;> simp [core]
  simp only [floorView, modifyCue_cues, same]
  rfl

@[simp] theorem floorView_setHeadEnding (o : CueOutcome) (s : State) : floorView (setHeadEnding o s) = floorView s :=
  floorView_modifyCue 0 (f := fun e => { e with ending := some (e.ending.getD o) }) (fun _ => rfl) s

/-- A change of the motion state that neither begins nor ends a move. -/
theorem floorView_setMotion {m : MotionState} {s : State} (moves : s.profile.motion ≠ .idle) (goesOn : m ≠ .idle) :
    floorView (setMotion m s) = floorView s := by
  have moving : moveExists { s with profile := { s.profile with motion := m } } = moveExists s := by
    rw [Bool.eq_iff_iff, moveExists_iff, moveExists_iff]
    exact iff_of_true goesOn moves
  unfold setMotion
  split
  · rfl
  · rw [floorView_setMarker]
    simp only [floorView, moving]
    rfl

theorem floorView_beginStop (kind : StopKind) {s : State} (moves : s.profile.motion ≠ .idle) :
    floorView (beginStop kind s) = floorView s := by
  rw [beginStop, floorView_retarget, floorView_setMotion (by exact moves) (by decide)]
  rfl

@[simp] theorem floorView_faultMotion (s : State) : floorView (faultMotion s) = floorView s := by
  unfold faultMotion
  split
  · rfl
  · rfl
  · rename_i notIdle _
    exact floorView_beginStop _ notIdle

/-- A change among ACTIVE and FAULT_STOP. -/
theorem floorView_setFaultStop {s : State} (on : onBus s = true) : floorView (setFaultStop s) = floorView s := by
  rw [setFaultStop_eq]
  simp only [floorView, on]
  rfl

theorem floorView_returnToActive {s : State} (on : onBus s = true) : floorView (returnToActive s) = floorView s := by
  rw [returnToActive_eq]
  simp only [floorView, on]
  rfl

end Sys2Proof.Machine
end

section
/-! The READY FIFO and the group records under the operations of the cue list and the group coordinator: which readiness is still
live after each (R97, R100 to R108). -/
namespace Sys2Proof.Machine

/-! ### Live readiness -/

theorem mem_liveOf {q : QueuedReady} {fifo : List QueuedReady} :
    q ∈ liveOf fifo ↔ q ∈ fifo ∧ q.withdrawn = false ∧ q.orphan = false := by
  simp [liveOf]

theorem liveOf_append (a b : List QueuedReady) : liveOf (a ++ b) = liveOf a ++ liveOf b := List.filter_append _ _

theorem liveOf_eq_nil {fifo : List QueuedReady} : liveOf fifo = [] ↔ ∀ q ∈ fifo, q.withdrawn = true ∨ q.orphan = true := by
  simp only [liveOf, List.filter_eq_nil_iff, Bool.and_eq_true, Bool.not_eq_true', not_and_or, Bool.not_eq_false]

theorem liveOf_dropWithdrawal (fifo : List QueuedReady) : liveOf (dropWithdrawal fifo) = liveOf fifo := by
  induction fifo with
  | nil => rfl
  | cons q fifo ih =>
    unfold dropWithdrawal
    cases withdrawn : q.withdrawn with
    | true => simp [liveOf, withdrawn]
    | false =>
      simp only [Bool.false_eq_true, if_false, liveOf, List.filter_cons] at ih ⊢
      rw [ih]

theorem mem_of_mem_dropWithdrawal {q : QueuedReady} {fifo : List QueuedReady} (mem : q ∈ dropWithdrawal fifo) : q ∈ fifo := by
  induction fifo with
  | nil => simp [dropWithdrawal] at mem
  | cons r fifo ih =>
    unfold dropWithdrawal at mem
    split at mem
    · exact List.mem_cons_of_mem _ mem
    · rcases List.mem_cons.mp mem with rfl | mem
      · exact List.mem_cons_self
      · exact List.mem_cons_of_mem _ (ih mem)

/-- No frame of a list is marked. -/
def unmarked (fifo : List QueuedReady) : Prop := ∀ q ∈ fifo, q.orphan = false

theorem unmarked_append {a b : List QueuedReady} : unmarked (a ++ b) ↔ unmarked a ∧ unmarked b := List.forall_mem_append

/-- A frame as it goes out, with no mark. -/
def asSent (q : QueuedReady) : QueuedReady := { q with orphan := false }

theorem asSent_orphaned (g : Byte) (q : QueuedReady) : asSent (orphaned g q) = asSent q := by
  unfold orphaned
  split <;> rfl

/-! ### The operations on the READY FIFO -/

/-- A READY that joins changes nothing ahead of it but a withdrawal that makes room (R102). -/
theorem fifoJoined_split (sent : List QueuedReady) {later : List QueuedReady} {w : QueuedReady} (fresh : w.orphan = false)
    (clean : unmarked later) :
    ∃ later', fifoJoined w sent.length (sent ++ later) = sent ++ later' ∧ unmarked later' ∧
      (liveOf later' = liveOf later ∨ liveOf later' = liveOf later ++ liveOf [w]) := by
  have one : unmarked [w] := by simpa [unmarked] using fresh
  unfold fifoJoined
  dsimp only
  rw [List.take_left, List.drop_left]
  split
  · exact ⟨later ++ [w], List.append_assoc _ _ _, unmarked_append.mpr ⟨clean, one⟩, .inr (liveOf_append _ _)⟩
  · split
    · refine ⟨dropWithdrawal later ++ [w], List.append_assoc _ _ _,
        unmarked_append.mpr ⟨fun q mem => clean q (mem_of_mem_dropWithdrawal mem), one⟩, .inr ?_⟩
      rw [liveOf_append, liveOf_dropWithdrawal]
    · exact ⟨later, rfl, clean, .inl rfl⟩

/-- Marking the readiness of a group leaves none of that group live. -/
theorem liveOf_orphaned {g : Byte} {fifo : List QueuedReady} (own : ∀ q ∈ liveOf fifo, q.group = g) :
    liveOf (fifo.map (orphaned g)) = [] := by
  rw [liveOf_eq_nil]
  intro q mem
  obtain ⟨r, was, rfl⟩ := List.mem_map.mp mem
  unfold orphaned
  split
  · exact .inr rfl
  · rename_i other
    by_contra live
    have live : r.withdrawn = false ∧ r.orphan = false := by simpa using live
    exact other (isReadiness_iff.mpr ⟨own r (mem_liveOf.mpr ⟨was, live⟩), live.1⟩)

section
variable {g tag : Byte} {sent later : List QueuedReady} (clean : unmarked later) (one : (liveOf (sent ++ later)).length ≤ 1)
  (own : ∀ q ∈ liveOf (sent ++ later), q.group = g)
include clean one own

/-- After a withdrawal has been placed no readiness of its group is live (R102). -/
theorem fifoWithdrawn_split : ∃ sent' later', fifoWithdrawn g tag sent.length (sent ++ later) = sent' ++ later' ∧
    sent'.map asSent = sent.map asSent ∧ unmarked later' ∧ liveOf (sent' ++ later') = [] := by
  have ownSent : ∀ q ∈ liveOf sent, q.group = g := fun q mem => own q (by rw [liveOf_append]; exact List.mem_append_left _ mem)
  by_cases any : ∃ q ∈ later, isReadiness g q = true
  · obtain ⟨before, q, after, at_, here, earlier⟩ : ∃ before q after, later = before ++ q :: after ∧
        isReadiness g q = true ∧ ∀ x ∈ before, isReadiness g x = false := by
      have found : (later.find? (isReadiness g)).isSome = true := List.find?_isSome.mpr any
      obtain ⟨q, found⟩ := Option.isSome_iff_exists.mp found
      obtain ⟨here, before, after, at_, earlier⟩ := List.find?_eq_some_iff_append.mp found
      exact ⟨before, q, after, at_, here, fun x mem => by simpa using earlier x mem⟩
    have live : liveOf [q] = [q] := by
      simp [liveOf, (isReadiness_iff.mp here).2, clean q (by simp [at_])]
    have alone : liveOf sent = [] ∧ liveOf before = [] ∧ liveOf after = [] := by
      rw [at_, ← List.singleton_append, liveOf_append, liveOf_append, liveOf_append, live] at one
      simp only [List.length_append, List.length_singleton] at one
      exact ⟨List.length_eq_zero_iff.mp (by omega), List.length_eq_zero_iff.mp (by omega),
        List.length_eq_zero_iff.mp (by omega)⟩
    refine ⟨sent, before ++ ⟨g, tag, 0, 0, true, false⟩ :: after,
      (fifoWithdrawn_replaces at_ earlier here).trans (List.append_assoc _ _ _), rfl, fun x mem => ?_, ?_⟩
    · rcases List.mem_append.mp mem with mem | mem
      · exact clean x (by simp [at_, mem])
      · rcases List.mem_cons.mp mem with rfl | mem
        · rfl
        · exact clean x (by simp [at_, mem])
    · rw [← List.singleton_append, liveOf_append, liveOf_append, liveOf_append, alone.1, alone.2.1, alone.2.2]
      rfl
  · have none : ∀ x ∈ later, isReadiness g x = false := fun x mem =>
      Bool.eq_false_iff.mpr fun yes => any ⟨x, mem, yes⟩
    have quiet : liveOf later = [] := by
      rw [liveOf_eq_nil]
      intro x mem
      by_contra live
      have live : x.withdrawn = false ∧ x.orphan = false := by simpa using live
      have group := own x (mem_liveOf.mpr ⟨List.mem_append_right _ mem, live⟩)
      exact absurd (none x mem) (by simp [isReadiness_iff.mpr ⟨group, live.1⟩])
    obtain ⟨later', joined, clean', live⟩ := fifoJoined_split (sent.map (orphaned g))
      (w := ⟨g, tag, 0, 0, true, false⟩) rfl clean
    rw [List.length_map] at joined
    refine ⟨sent.map (orphaned g), later', (fifoWithdrawn_joins none).trans joined, ?_, clean', ?_⟩
    · rw [List.map_map]
      exact List.map_congr_left fun q _ => asSent_orphaned g q
    · rw [liveOf_append, liveOf_orphaned ownSent, List.nil_append]
      exact live.elim (·.trans quiet) fun joins => joins.trans (by rw [quiet]; rfl)

end

/-! ### The FIFO clause -/

section
variable {number : Nat} {waiter : Option (Byte × Nat)} {records : List GroupRecord} {fifo : List QueuedReady}
  {sending : Option QueuedReady} (h : FifoRight number waiter records fifo sending)
include h

/-- The frames in transmission and the others. -/
theorem FifoRight.split : ∃ sent later, fifo = sent ++ later ∧ sent.length = (if sending.isSome then 1 else 0) ∧ unmarked later := by
  refine ⟨fifo.take (if sending.isSome then 1 else 0), fifo.drop (if sending.isSome then 1 else 0), by simp, ?_, h.clean⟩
  rw [List.length_take]
  cases sent : sending with
  | none => simp
  | some r =>
    obtain ⟨_, q, first, _⟩ := h.head r sent
    cases fifo with
    | nil => simp at first
    | cons => simp

theorem FifoRight.group {q : QueuedReady} (live : q ∈ liveOf fifo) : ∃ n, waiter = some (q.group, n) :=
  ⟨_, (h.queued q live).1⟩

/-- The FIFO clause after an operation that keeps what is being sent: what is live decides. -/
theorem FifoRight.resend {sent later sent' later' : List QueuedReady} (split : fifo = sent ++ later)
    (length : sent.length = if sending.isSome then 1 else 0) (same : sent'.map asSent = sent.map asSent)
    (clean : unmarked later') {waiter' : Option (Byte × Nat)} {records' : List GroupRecord}
    (one : (liveOf (sent' ++ later')).length ≤ 1)
    (queued : ∀ q ∈ liveOf (sent' ++ later'), waiter' = some (q.group, q.duration) ∧ ∃ r ∈ records', r.group = q.group ∧
      r.state = .collecting ∧ ∀ m ∈ r.slots, m.number = number → m.ready = none) :
    FifoRight number waiter' records' (sent' ++ later') sending := by
  have length' : sent'.length = if sending.isSome then 1 else 0 := by
    rw [← length, ← List.length_map (f := asSent), same, List.length_map]
  refine ⟨one, queued, fun r out => ?_, fun q mem => ?_⟩
  · obtain ⟨unmarked, q, first, form⟩ := h.head r out
    rw [out] at length length'
    obtain ⟨a, rfl⟩ := List.length_eq_one_iff.mp length
    obtain ⟨b, rfl⟩ := List.length_eq_one_iff.mp length'
    obtain rfl : a = q := by simpa [split] using first
    have same : asSent b = asSent a := by simpa using same
    exact ⟨unmarked, b, rfl, same.trans form⟩
  · rw [← length', List.drop_left] at mem
    exact clean q mem

end

/-- The FIFO clause with other records: those that a live readiness needs are kept. -/
theorem FifoRight.withRecords {number : Nat} {waiter : Option (Byte × Nat)} {records records' : List GroupRecord}
    {fifo : List QueuedReady} {sending : Option QueuedReady} (h : FifoRight number waiter records fifo sending)
    (kept : ∀ r ∈ records, r.state = .collecting → (∃ n, waiter = some (r.group, n)) →
      (∀ m ∈ r.slots, m.number = number → m.ready = none) →
      ∃ r' ∈ records', r'.group = r.group ∧ r'.state = .collecting ∧ ∀ m ∈ r'.slots, m.number = number → m.ready = none) :
    FifoRight number waiter records' fifo sending where
  one := h.one
  queued q live := by
    obtain ⟨waits, r, mem, group, collecting, fresh⟩ := h.queued q live
    obtain ⟨r', mem', group', record⟩ := kept r mem collecting ⟨_, group ▸ waits⟩ fresh
    exact ⟨waits, r', mem', group'.trans group, record⟩
  head := h.head
  clean := h.clean

/-- With no head in GROUP_WAIT no readiness is live. -/
theorem FifoRight.liveNone {number : Nat} {waiter : Option (Byte × Nat)} {records : List GroupRecord} {fifo : List QueuedReady}
    {sending : Option QueuedReady} (h : FifoRight number waiter records fifo sending) (none : waiter = none) :
    liveOf fifo = [] := by
  refine List.eq_nil_iff_forall_not_mem.mpr fun q live => ?_
  obtain ⟨n, some⟩ := h.group live
  simp [none] at some

/-- With no readiness live the FIFO clause asks only for what is being sent. -/
theorem FifoRight.quiet {number : Nat} {waiter waiter' : Option (Byte × Nat)} {records records' : List GroupRecord}
    {fifo : List QueuedReady} {sending : Option QueuedReady} (h : FifoRight number waiter records fifo sending)
    (none : liveOf fifo = []) : FifoRight number waiter' records' fifo sending where
  one := h.one
  queued q live := by simp [none] at live
  head := h.head
  clean := h.clean

/-! ### The records clause -/

section
variable {number : Nat} {parts : List (Byte × GroupPhase)} {waiter : Option (Byte × Nat)} {records : List GroupRecord}
  {wait : Bool} (h : RecordsRight number parts waiter records wait)
include h

theorem RecordsRight.unique {r q : GroupRecord} (memR : r ∈ records) (memQ : q ∈ records) (same : r.group = q.group) : r = q :=
  List.inj_on_of_nodup_map h.distinct memR memQ same

/-- With no head in GROUP_WAIT no own slot of a COLLECTING record is recorded. -/
theorem RecordsRight.fresh (none : waiter = none) {r : GroupRecord} (mem : r ∈ records) (collecting : r.state = .collecting)
    {m : Slot} (slot : m ∈ r.slots) (own : m.number = number) : m.ready = Option.none := by
  cases ready : m.ready with
  | none => rfl
  | some x => simpa [none] using h.recorded r mem collecting m slot own x.1 x.2 ready

/-- An entry leaves with its record: the head in GROUP_WAIT with the wait timer, another entry alone (R97, R105). -/
theorem RecordsRight.leave {group : Option Byte} {parts' : List (Byte × GroupPhase)} {waiter' : Option (Byte × Nat)}
    {wait' : Bool} (sub : parts'.Sublist parts) (gone : ∀ x ∈ parts', group ≠ some x.1)
    (left : (waiter' = waiter ∧ wait' = wait ∧ ∀ x, waiter = some x → group ≠ some x.1) ∨
      (wait' = false ∧ ∃ x, waiter = some x ∧ group = some x.1)) :
    RecordsRight number parts' waiter' (records.filter fun r => decide (group ≠ some r.group)) wait' where
  distinct := h.distinct.sublist (List.filter_sublist.map _)
  single := h.single.sublist (sub.map _)
  owned x mem := by
    obtain ⟨r, memR, same, fits⟩ := h.owned x (sub.subset mem)
    exact ⟨r, List.mem_filter.mpr ⟨memR, by simpa [same] using gone x mem⟩, same, fits⟩
  slot r mem := h.slot r (List.mem_of_mem_filter mem)
  recorded r mem collecting m slot own n g ready := by
    obtain ⟨mem, other⟩ := List.mem_filter.mp mem
    have was := h.recorded r mem collecting m slot own n g ready
    rcases left with ⟨same, _⟩ | ⟨_, x, is, group⟩
    · rw [same]
      exact was
    · obtain rfl : x = (r.group, n) := Option.some.inj (is.symm.trans was)
      simp [group] at other
  waits on := by
    rcases left with ⟨same, timer, other⟩ | ⟨off, _⟩
    · obtain ⟨r, mem, collecting, n, was⟩ := h.waits (timer ▸ on)
      exact ⟨r, List.mem_filter.mpr ⟨mem, by simpa using other _ was⟩, collecting, n, same ▸ was⟩
    · simp [off] at on

/-- A new entry brings its record (R97). -/
theorem RecordsRight.join {g : Byte} {r : GroupRecord} (fresh : ∀ q ∈ records, q.group ≠ g) (group : r.group = g)
    (collecting : r.state = .collecting) (member : ∃ m ∈ r.slots, m.number = number) (blank : ∀ m ∈ r.slots, m.ready = none) :
    RecordsRight number (parts ++ [(g, .gathering)]) waiter (records ++ [r]) wait where
  distinct := by
    rw [List.map_append]
    refine nodup_concat h.distinct fun mem => ?_
    obtain ⟨q, mem, same⟩ := List.mem_map.mp mem
    exact fresh q mem (same.trans group)
  single := by
    rw [List.map_append]
    refine nodup_concat h.single fun mem => ?_
    obtain ⟨x, mem, same⟩ := List.mem_map.mp mem
    obtain ⟨q, memQ, groupQ, _⟩ := h.owned x mem
    exact fresh q memQ (groupQ.trans same)
  owned x mem := by
    rcases List.mem_append.mp mem with mem | mem
    · obtain ⟨q, memQ, rest⟩ := h.owned x mem
      exact ⟨q, List.mem_append_left _ memQ, rest⟩
    · obtain rfl := List.mem_singleton.mp mem
      exact ⟨r, by simp, group, collecting⟩
  slot q mem := by
    rcases List.mem_append.mp mem with mem | mem
    · exact h.slot q mem
    · obtain rfl := List.mem_singleton.mp mem
      exact member
  recorded q mem open_ m slot own n d ready := by
    rcases List.mem_append.mp mem with mem | mem
    · exact h.recorded q mem open_ m slot own n d ready
    · obtain rfl := List.mem_singleton.mp mem
      simp [blank m slot] at ready
  waits on := by
    obtain ⟨q, mem, rest⟩ := h.waits on
    exact ⟨q, List.mem_append_left _ mem, rest⟩

/-- Records changed one by one, keeping their groups: what each clause asks of the changed record. -/
theorem RecordsRight.change {f : GroupRecord → GroupRecord} {parts' : List (Byte × GroupPhase)} {waiter' : Option (Byte × Nat)}
    {wait' : Bool} (group : ∀ r, (f r).group = r.group) (numbers : ∀ r, (f r).slots.map Slot.number = r.slots.map Slot.number)
    (single : (parts'.map Prod.fst).Nodup)
    (owned : ∀ x ∈ parts', ∃ r ∈ records, r.group = x.1 ∧ x.2.fits (f r).state)
    (recorded : ∀ r ∈ records, (f r).state = .collecting → ∀ m ∈ (f r).slots, m.number = number → ∀ n g, m.ready = some (n, g) →
      waiter' = some (r.group, n))
    (waits : wait' = true → ∃ r ∈ records, (f r).state = .collecting ∧ ∃ n, waiter' = some (r.group, n)) :
    RecordsRight number parts' waiter' (records.map f) wait' where
  distinct := by
    rw [List.map_map, show GroupRecord.group ∘ f = GroupRecord.group from funext group]
    exact h.distinct
  single := single
  owned x mem := by
    obtain ⟨r, memR, same, fits⟩ := owned x mem
    exact ⟨f r, List.mem_map_of_mem memR, (group r).trans same, fits⟩
  slot r mem := by
    obtain ⟨q, was, rfl⟩ := List.mem_map.mp mem
    obtain ⟨m, slot, own⟩ := h.slot q was
    have named : number ∈ (f q).slots.map Slot.number := by rw [numbers, ← own]; exact List.mem_map_of_mem slot
    obtain ⟨m', slot', own'⟩ := List.mem_map.mp named
    exact ⟨m', slot', own'⟩
  recorded r mem collecting m slot own n g ready := by
    obtain ⟨q, was, rfl⟩ := List.mem_map.mp mem
    rw [group]
    exact recorded q was collecting m slot own n g ready
  waits on := by
    obtain ⟨r, was, collecting, n, waiting⟩ := waits on
    exact ⟨f r, List.mem_map_of_mem was, collecting, n, (group r).symm ▸ waiting⟩

end

end Sys2Proof.Machine
end

section
/-! An entry leaves the list: its shape, its group record, its readiness and its rectangles go with it (R39, R49, R70, R97, R102). -/
namespace Sys2Proof.Machine

/-! ### The kinds of the own rectangles (R70) -/

theorem kind_heldLegs {kind : ClaimKind} {legs : List Leg} {o : OwnClaim} (mem : o ∈ heldLegs kind legs) : o.claim.kind = kind := by
  obtain ⟨_, _, rfl⟩ := List.mem_map.mp mem
  rfl

theorem kind_stageClaims {kind : ClaimKind} {e : CueEntry} {o : OwnClaim} (mem : o ∈ stageClaims kind e) : o.claim.kind = kind := by
  have pending : ∀ {rank : Rank} {legs : List Leg}, o ∈ pendingClaims kind rank legs → o.claim.kind = kind := fun mem => by
    obtain ⟨_, _, rfl⟩ := List.mem_map.mp mem
    rfl
  unfold stageClaims at mem
  split at mem
  · exact absurd mem List.not_mem_nil
  · exact absurd mem List.not_mem_nil
  · exact pending mem
  all_goals exact kind_heldLegs mem

theorem kind_headClaims {s : State} {e : CueEntry} {o : OwnClaim} (mem : o ∈ headClaims s e) :
    o = parkedClaim s ∧ entryLegs e = [] ∨ o.claim.kind = .leg := by
  rcases List.mem_append.mp mem with mem | mem
  · by_cases legs : entryLegs e = []
    · exact .inl ⟨by simpa [legs] using mem, legs⟩
    · simp [legs] at mem
  · exact .inr (kind_heldLegs (List.mem_of_mem_filter mem))

theorem kind_secondClaims {rest : List CueEntry} {o : OwnClaim} (mem : o ∈ secondClaims rest) : o.claim.kind = .nextLeg := by
  cases rest with
  | nil => exact absurd mem List.not_mem_nil
  | cons f more => exact kind_stageClaims mem

/-- Rectangles none of which the entry at a place owns stay when it leaves. -/
theorem filter_notOwned {k : Nat} {own : List OwnClaim} (none : ∀ o ∈ own, ownedAt k o = false) :
    own.filter (fun o => !ownedAt k o) = own := by
  rw [List.filter_eq_self]
  exact fun o mem => by simp [none o mem]

theorem filter_owned {k : Nat} {own : List OwnClaim} (all : ∀ o ∈ own, ownedAt k o = true) :
    own.filter (fun o => !ownedAt k o) = [] := by
  rw [List.filter_eq_nil_iff]
  exact fun o mem => by simp [all o mem]

theorem ownedAt_leg {o : OwnClaim} (leg : o.claim.kind = .leg) (k : Nat) : ownedAt k o = decide (k = 0) := by
  match k with
  | 0 => simp [ownedAt, leg]
  | 1 => simp [ownedAt, leg]
  | _ + 2 => simp [ownedAt]

theorem ownedAt_nextLeg {o : OwnClaim} (leg : o.claim.kind = .nextLeg) (k : Nat) : ownedAt k o = decide (k = 1) := by
  match k with
  | 0 => simp [ownedAt, leg]
  | 1 => simp [ownedAt, leg]
  | _ + 2 => simp [ownedAt]

theorem ownedAt_parked (s : State) (k : Nat) : ownedAt k (parkedClaim s) = false := by
  match k with
  | 0 => simp [ownedAt, parkedClaim]
  | 1 => simp [ownedAt, parkedClaim]
  | _ + 2 => simp [ownedAt]

/-- What is left of a waiting head's claims when the entry at a place leaves. -/
theorem waitingClaims_without (s : State) (e : CueEntry) (k : Nat) :
    (parkedClaim s :: stageClaims .leg e).filter (fun o => !ownedAt k o) =
      parkedClaim s :: (if k = 0 then [] else stageClaims .leg e) := by
  rw [List.filter_cons_of_pos (by simp [ownedAt_parked])]
  congr 1
  by_cases zero : k = 0
  · rw [if_pos zero, filter_owned fun o mem => by simp [ownedAt_leg (kind_stageClaims mem), zero]]
  · rw [if_neg zero, filter_notOwned fun o mem => by simp [ownedAt_leg (kind_stageClaims mem), zero]]

/-- What is left of a running head's and the second entry's claims when an entry behind the head leaves. -/
theorem runningClaims_without (s : State) (e : CueEntry) (rest : List CueEntry) {k : Nat} (behind : k ≠ 0) :
    (headClaims s e ++ secondClaims rest).filter (fun o => !ownedAt k o) =
      headClaims s e ++ if k = 1 then [] else secondClaims rest := by
  rw [List.filter_append]
  congr 1
  · refine filter_notOwned fun o mem => ?_
    rcases kind_headClaims mem with ⟨rfl, _⟩ | leg
    · exact ownedAt_parked s k
    · simp [ownedAt_leg leg, behind]
  · by_cases one : k = 1
    · rw [if_pos one, filter_owned fun o mem => by simp [ownedAt_nextLeg (kind_secondClaims mem), one]]
    · rw [if_neg one, filter_notOwned fun o mem => by simp [ownedAt_nextLeg (kind_secondClaims mem), one]]

/-! ### The shape -/

theorem exemptFor_leg {o : OwnClaim} {s t : State} (leg : o.claim.kind = .leg) (same : planFootprint 0 t = planFootprint 0 s) :
    exemptFor o t = exemptFor o s := by
  simp only [exemptFor, leg, same]

theorem exemptFor_nextLeg {o : OwnClaim} {s t : State} (leg : o.claim.kind = .nextLeg)
    (same : planFootprint 1 t = planFootprint 1 s) : exemptFor o t = exemptFor o s := by
  simp only [exemptFor, leg, same]

theorem planFootprint_of_list {s t : State} {k : Nat} (same : t.cues[k]? = s.cues[k]?) : planFootprint k t = planFootprint k s := by
  rw [planFootprint, same, planFootprint]

theorem follows_of_unread {cfg : Configuration} {starts : PerAxis Position} {rest : List CueEntry} (h : ∀ f ∈ rest, Unread f) :
    Follows cfg starts rest := by
  cases rest with
  | nil => trivial
  | cons f more =>
    exact ⟨.unread (h f (by simp)), by simp [(h f (by simp)).queued], fun g mem => h g (List.mem_cons_of_mem _ mem)⟩

/-- The list whose entries are all unread, no move existing: the shape is that of its first entry. -/
theorem shape_of_unread {t : State} (on : onBus t = true) (still : Still t) (unread : ∀ f ∈ t.cues, Unread f)
    (own : t.claims.own = [parkedClaim t]) : ListShape t := by
  cases list : t.cues with
  | nil => exact .empty list still (by rw [own, if_pos on])
  | cons f more =>
    rw [list] at unread
    have first := unread f (by simp)
    exact .waiting f more list on still (.unread first) (fun g mem => unread g (List.mem_cons_of_mem _ mem))
      (by rw [own, stageClaims_unread first])

section
variable {s : State} {before after : List CueEntry} {e : CueEntry} (o : CueOutcome) (withdraw : Bool)
  (list : s.cues = before ++ e :: after)
include list

/-- An entry whose move is not running leaves: the shape without it, the exempt footprints of what is still claimed. -/
theorem without_shape (shape : ListShape s) (still : e.stage ≠ .running) :
    ListShape (without before after o e withdraw s) ∧
      ∀ c ∈ (without before after o e withdraw s).claims.own, exemptFor c (without before after o e withdraw s) = exemptFor c s := by
  have own : (without before after o e withdraw s).claims.own = s.claims.own.filter fun c => !ownedAt before.length c := rfl
  cases shape with
  | empty none => simp [none] at list
  | waiting d rest head on rests waits later claims =>
    rw [claims, waitingClaims_without] at own
    rw [head] at list
    cases before with
    | nil =>
      obtain ⟨rfl, rfl⟩ : d = e ∧ rest = after := by simpa using list
      rw [List.length_nil, if_pos rfl] at own
      refine ⟨shape_of_unread on ⟨rests.motion, rests.plan, rests.leg1Passed⟩ later own, fun c mem => ?_⟩
      rw [own, List.mem_singleton] at mem
      rw [mem]
      rfl
    | cons b before =>
      obtain ⟨rfl, rfl⟩ : d = b ∧ rest = before ++ e :: after := by simpa using list
      rw [List.length_cons, if_neg (Nat.succ_ne_zero _)] at own
      refine ⟨.waiting d (before ++ after) rfl on ⟨rests.motion, rests.plan, rests.leg1Passed⟩ waits
        (fun f mem => later f ?_) own, fun c mem => ?_⟩
      · rcases List.mem_append.mp mem with mem | mem
        · exact List.mem_append_left _ mem
        · exact List.mem_append_right _ (List.mem_cons_of_mem _ mem)
      · rw [own] at mem
        rcases List.mem_cons.mp mem with rfl | mem
        · rfl
        · exact exemptFor_leg (kind_stageClaims mem) (planFootprint_of_list (by rw [head]; rfl))
  | running d rest c p runs moves =>
    rw [runs.list] at list
    cases before with
    | nil =>
      obtain ⟨rfl, _⟩ : d = e ∧ rest = after := by simpa using list
      exact absurd runs.stage still
    | cons b before =>
      obtain ⟨rfl, rfl⟩ : d = b ∧ rest = before ++ e :: after := by simpa using list
      rw [runs.own, runningClaims_without _ _ _ (by simp)] at own
      have moves' : Moves (without (d :: before) after o e withdraw s) c p :=
        ⟨moves.motion, moves.plan, moves.time, moves.setpoint, moves.passed, moves.before⟩
      have follows : Follows (configOf s) p.target (before ++ after) ∧
          (if before.length + 1 = 1 then [] else secondClaims (before ++ e :: after)) = secondClaims (before ++ after) := by
        have second := runs.second
        cases before with
        | nil =>
          have unread : ∀ f ∈ after, Unread f := second.2.2
          exact ⟨follows_of_unread unread, (secondClaims_unread unread).symm⟩
        | cons f before =>
          obtain ⟨waits, notGroup, later⟩ := second
          refine ⟨⟨waits, notGroup, fun g mem => later g ?_⟩, by simp [secondClaims]⟩
          rcases List.mem_append.mp mem with mem | mem
          · exact List.mem_append_left _ mem
          · exact List.mem_append_right _ (List.mem_cons_of_mem _ mem)
      rw [List.length_cons, follows.2] at own
      refine ⟨.running d (before ++ after) c p ⟨rfl, runs.on, runs.stage, runs.mode, runs.planned, follows.1, own⟩ moves',
        fun c mem => ?_⟩
      rw [own] at mem
      rcases List.mem_append.mp mem with mem | mem
      · rcases kind_headClaims mem with ⟨rfl, _⟩ | leg
        · rfl
        · exact exemptFor_leg leg (planFootprint_of_list (by rw [runs.list]; rfl))
      · refine exemptFor_nextLeg (kind_secondClaims mem) (planFootprint_of_list ?_)
        rw [runs.list]
        cases before with
        | nil =>
          rw [← follows.2] at mem
          simp at mem
        | cons f before => rfl

end

/-! ### Groups -/

theorem groupParts_append (a b : List CueEntry) : groupParts (a ++ b) = groupParts a ++ groupParts b := List.filterMap_append

theorem groupParts_cons (e : CueEntry) (rest : List CueEntry) :
    groupParts (e :: rest) = (e.group.map fun g => (g, groupPhase e.stage)).toList ++ groupParts rest := by
  cases group : e.group <;> simp [groupParts, group]

theorem waiterOf_cons_other {e : CueEntry} (other : e.stage ≠ .groupWait) (rest : List CueEntry) : waiterOf (e :: rest) = none :=
  if_neg other

theorem waiterOf_unread {rest : List CueEntry} (h : ∀ f ∈ rest, Unread f) : waiterOf rest = none := by
  cases rest with
  | nil => rfl
  | cons f more => exact waiterOf_cons_other (by simp [(h f (by simp)).queued]) more

/-- The head in GROUP_WAIT with its group. -/
theorem waiterOf_some {cues : List CueEntry} {x : Byte × Nat} (h : waiterOf cues = some x) :
    ∃ e rest, cues = e :: rest ∧ e.stage = .groupWait ∧ e.group = some x.1 ∧ ownDuration e = x.2 := by
  cases cues with
  | nil => simp [waiterOf] at h
  | cons e rest =>
    by_cases waits : e.stage = .groupWait
    · cases group : e.group with
      | none => simp [waiterOf, waits, group] at h
      | some g =>
        have h : (g, ownDuration e) = x := by simpa [waiterOf, waits, group] using h
        exact ⟨e, rest, rfl, waits, by rw [← h, group], by rw [← h]⟩
    · simp [waiterOf, waits] at h

theorem sendingOf_without (before after : List CueEntry) (o : CueOutcome) (e : CueEntry) (withdraw : Bool) (s : State) :
    sendingOf (without before after o e withdraw s) = sendingOf s := sendingOf_congr (busAfterReport_transmission _ _)

/-- Who leaves with what of the groups: the head in GROUP_WAIT with the wait timer, another entry alone. -/
def LeavesGroup (group : Option Byte) (waiter waiter' : Option (Byte × Nat)) (wait wait' : Bool) : Prop :=
  (waiter' = waiter ∧ wait' = wait ∧ ∀ x, waiter = some x → group ≠ some x.1) ∨
    (wait' = false ∧ ∃ x, waiter = some x ∧ group = some x.1)

section
variable {P : Nat → Prop} {s : State} {before after : List CueEntry} {e : CueEntry} (o : CueOutcome) (withdraw : Bool)
  (list : s.cues = before ++ e :: after)
include list

/-- The group ids of the other entries differ from the leaving one's. -/
theorem Around.otherGroups (h : Around P s) : ∀ x ∈ groupParts (before ++ after), e.group ≠ some x.1 := by
  intro x mem group
  have single := h.records.single
  rw [list, groupParts_append, groupParts_cons, group] at single
  rw [groupParts_append] at mem
  simp only [Option.map_some, Option.toList_some, List.map_append, List.map_cons, List.singleton_append,
    List.nodup_append, List.nodup_cons, List.mem_map, List.mem_cons] at single
  obtain ⟨_, ⟨notAfter, _⟩, apart⟩ := single
  rcases List.mem_append.mp mem with mem | mem
  · exact apart x.1 ⟨x, mem, rfl⟩ x.1 (.inl rfl) rfl
  · exact notAfter ⟨x, mem, rfl⟩

theorem Agrees.leavesGroup (h : Agrees P s) (still : e.stage ≠ .running) :
    LeavesGroup e.group (waiterOf s.cues) (waiterOf (before ++ after)) s.groups.waitTimer
      (groupsWithout e s.groups).waitTimer := by
  have right : EntryRight s before.length e := h.shape.entries (by rw [list, getElem?_place])
  by_cases waits : e.stage = .groupWait
  · have zero : before = [] := List.length_eq_zero_iff.mp (right.head (.inl waits))
    have named : e.group ≠ none := right.mode.mp (right.group waits)
    obtain ⟨g, group⟩ := Option.ne_none_iff_exists'.mp named
    refine .inr ⟨if_pos ⟨waits, named⟩, (g, ownDuration e), ?_, group⟩
    rw [list, zero]
    simp [waiterOf, waits, group]
  · have timer : (groupsWithout e s.groups).waitTimer = s.groups.waitTimer := if_neg fun h => waits h.1
    cases before with
    | nil =>
      have none : waiterOf s.cues = none := by rw [list]; exact waiterOf_cons_other waits _
      refine .inl ⟨?_, timer, fun x some => by simp [none] at some⟩
      rw [none]
      cases h.shape with
      | empty empty => simp [empty] at list
      | waiting d rest head _ _ _ later =>
        obtain ⟨rfl, rfl⟩ : d = e ∧ rest = after := by simpa [head] using list
        exact waiterOf_unread later
      | running d rest c p runs =>
        obtain ⟨rfl, _⟩ : d = e ∧ rest = after := by simpa [runs.list] using list
        exact absurd runs.stage still
    | cons d before =>
      refine .inl ⟨by rw [list]; rfl, timer, fun x some group => ?_⟩
      rw [list] at some
      obtain ⟨f, rest, same, stage, groupF, _⟩ := waiterOf_some some
      obtain ⟨rfl, _⟩ : d = f ∧ before ++ e :: after = rest := by simpa using same
      refine h.otherGroups list (x.1, .waiting) ?_ group
      exact mem_groupParts.mpr ⟨d, by simp, groupF, by simp [stage, groupPhase]⟩

/-- After a head in GROUP_WAIT has left no readiness is live: it was withdrawn, or its record takes none. -/
theorem Agrees.fifoWithout (h : Agrees P s) (waits : e.stage = .groupWait) (zero : before = [])
    (due : withdraw = true ∨ liveOf s.bus.readyFifo = []) :
    FifoRight s.control.number (waiterOf (before ++ after)) (groupsWithout e s.groups).records (fifoWithout e withdraw s)
      (sendingOf s) := by
  have right : EntryRight s before.length e := h.shape.entries (by rw [list, getElem?_place])
  obtain ⟨g, group⟩ := Option.ne_none_iff_exists'.mp (right.mode.mp (right.group waits))
  have waiter : waiterOf s.cues = some (g, ownDuration e) := by
    rw [list, zero]
    simp [waiterOf, waits, group]
  have own : ∀ q ∈ liveOf s.bus.readyFifo, q.group = g := fun q live => by
    have same := (h.fifo.queued q live).1
    rw [waiter] at same
    exact congrArg Prod.fst (Option.some.inj same).symm
  unfold Machine.fifoWithout
  split
  · obtain ⟨sent, later, split, length, clean⟩ := h.fifo.split
    rw [split] at own
    have one := h.fifo.one
    rw [split] at one
    obtain ⟨sent', later', placed, same, clean', live⟩ :=
      fifoWithdrawn_split (g := g) (tag := e.tag) clean one own
    rw [group, Option.getD_some, readySent_sendingOf, ← length, split, placed]
    exact h.fifo.resend split length same clean' (by simp [live]) (by simp [live])
  · rename_i not
    refine h.fifo.quiet (due.elim (fun due => ?_) id)
    by_contra some
    obtain ⟨q, live⟩ := List.exists_mem_of_ne_nil _ some
    obtain ⟨_, r, mem, groupR, collecting, _⟩ := h.fifo.queued q live
    have found : groupRecord g s = Option.some r := by
      have known : (groupRecord g s).isSome = true :=
        List.find?_isSome.mpr ⟨r, mem, by simp [groupR, own q live]⟩
      obtain ⟨r', found⟩ := Option.isSome_iff_exists.mp known
      have same : r' = r := h.records.unique (List.mem_of_find?_eq_some found) mem
        ((groupRecord_group found).trans (by rw [groupR, own q live]))
      rw [found, same]
    exact not (by simp [due, waits, entryGroupState, group, found, collecting])

/-- An entry whose move is not running leaves: all stays in agreement, and the overlap set while the HELD rectangles stay. -/
theorem Agrees.without (h : Agrees P s) (still : e.stage ≠ .running)
    (due : withdraw = true ∨ e.stage ≠ .groupWait ∨ liveOf s.bus.readyFifo = []) :
    Agrees (fun n => P n ∧ heldClaims (without before after o e withdraw s) = heldClaims s)
      (without before after o e withdraw s) := by
  obtain ⟨shape, exempt⟩ := without_shape o withdraw list h.shape still
  have right : EntryRight s before.length e := h.shape.entries (by rw [list, getElem?_place])
  have leaves := h.leavesGroup list still
  refine ⟨⟨h.sane, h.numbers, ?_, ?_, fun off => ?_, h.ascending, h.known, fun n ⟨tested, held⟩ => ?_⟩, shape⟩
  · refine h.records.leave ?_ (h.otherGroups list) leaves
    rw [list]
    exact List.Sublist.filterMap _ (List.Sublist.append_left (List.sublist_cons_self _ _) _)
  · rw [sendingOf_without]
    by_cases waits : e.stage = .groupWait
    · exact h.fifoWithout withdraw list waits (List.length_eq_zero_iff.mp (right.head (.inl waits)))
        (due.imp_right fun d => d.resolve_left (absurd waits))
    · have same : (Machine.without before after o e withdraw s).bus.readyFifo = s.bus.readyFifo := fifoWithout_quiet (.inr (.inl waits))
      rw [same]
      rcases leaves with ⟨waiter, _, others⟩ | ⟨_, x, waiter, group⟩
      · rw [show waiterOf (Machine.without before after o e withdraw s).cues = waiterOf s.cues from waiter]
        refine h.fifo.withRecords fun r mem collecting ⟨n, is⟩ fresh => ⟨r, List.mem_filter.mpr ⟨mem, ?_⟩, rfl, collecting, fresh⟩
        simpa using others _ is
      · obtain ⟨d, rest, head, stage, groupD, _⟩ := waiterOf_some waiter
        cases before with
        | nil =>
          obtain ⟨rfl, _⟩ : d = e ∧ rest = after := by simpa [head] using list
          exact absurd stage waits
        | cons b before =>
          obtain ⟨rfl, _⟩ : d = b ∧ rest = before ++ e :: after := by simpa [head] using list
          exact absurd group (h.otherGroups list (x.1, .waiting)
            (mem_groupParts.mpr ⟨d, by simp, groupD, by simp [stage, groupPhase]⟩))
  · simp [(h.shape.offBus off).1] at list
  · rw [show (Machine.without before after o e withdraw s).claims.overlap = s.claims.overlap from rfl,
      show (Machine.without before after o e withdraw s).peers = s.peers from rfl, h.exact n tested]
    simp only [peerOverlaps_congr held fun c mem => exempt c (List.mem_of_mem_filter mem)]

end

end Sys2Proof.Machine
end

section
/-! The overlap test, a fault that is raised, and the entry to FAULT_STOP: what is tested stays tested, and every peer is tested
after a change of the HELD rectangles (R50, R84, R85, R164, R166). -/
namespace Sys2Proof.Machine

/-! ### The overlap set -/

theorem Moves.same {s t : State} {c : ShotContent} {p : Plan} (h : Moves s c p) (profile : t.profile = s.profile)
    (setpoint : t.port.lastSetpoint = s.port.lastSetpoint) : Moves t c p where
  motion := by rw [profile]; exact h.motion
  plan := by rw [profile]; exact h.plan
  time := by rw [profile]; exact h.time
  setpoint := by rw [profile, setpoint]; exact h.setpoint
  passed := by rw [profile]; exact h.passed
  before := by rw [profile]; exact h.before

/-- The shape reads the list, the own claims, the profile generator, the setpoints and whether the station is on the bus. -/
theorem ListShape.same {s t : State} (h : ListShape s) (cues : t.cues = s.cues) (own : t.claims.own = s.claims.own)
    (on : onBus t = onBus s) (config : configOf t = configOf s) (setpoint : t.port.lastSetpoint = s.port.lastSetpoint)
    (profile : t.profile = s.profile) : ListShape t := by
  have parked : parkedClaim t = parkedClaim s := by rw [parkedClaim, config, setpoint]; rfl
  have still : Still s → Still t := fun h => ⟨profile ▸ h.motion, profile ▸ h.plan, profile ▸ h.leg1Passed⟩
  cases h with
  | empty list rests claims => exact .empty (cues.trans list) (still rests) (by rw [own, claims, on, parked])
  | waiting e rest list onS rests head later claims =>
    exact .waiting e rest (cues.trans list) (on.trans onS) (still rests) (by rwa [config, setpoint]) later
      (by rw [own, claims, parked])
  | running e rest c p runs moves =>
    refine .running e rest c p ⟨cues.trans runs.list, on.trans runs.on, runs.stage, runs.mode, config ▸ runs.planned,
      config ▸ runs.second, ?_⟩ (moves.same profile setpoint)
    rw [own, runs.own, headClaims, headClaims, parked, profile]

theorem insertNumber_ascending {n : Nat} {l : List Nat} (h : l.Pairwise (· < ·)) : (insertNumber n l).Pairwise (· < ·) := by
  induction l with
  | nil => simp [insertNumber]
  | cons m l ih =>
    rw [List.pairwise_cons] at h
    obtain ⟨below, rest⟩ := h
    unfold insertNumber
    split
    · rename_i less
      refine List.pairwise_cons.mpr ⟨fun k mem => ?_, List.pairwise_cons.mpr ⟨below, rest⟩⟩
      rcases List.mem_cons.mp mem with rfl | mem
      · exact less
      · exact less.trans (below k mem)
    · split
      · exact List.pairwise_cons.mpr ⟨below, rest⟩
      · refine List.pairwise_cons.mpr ⟨fun k mem => ?_, ih rest⟩
        rcases mem_insertNumber.mp mem with rfl | mem
        · omega
        · exact below k mem

/-- A new overlap set, right for the numbers tested so far. -/
theorem Agrees.setOverlap {P Q : Nat → Prop} {s : State} {l : List Nat} (h : Agrees P s) (ascending : l.Pairwise (· < ·))
    (known : ∀ n ∈ l, ∃ p ∈ s.peers, p.number = n)
    (exact : ∀ n, Q n → (n ∈ l ↔ ∃ p ∈ s.peers, p.number = n ∧ peerOverlaps p s = true)) : Agrees Q (setOverlap l s) where
  sane := h.sane
  numbers := h.numbers
  shape := h.shape.same rfl rfl rfl rfl rfl rfl
  records := h.records
  fifo := h.fifo
  offBus := h.offBus
  ascending := ascending
  known := known
  exact := exact

theorem peerOf_some {s : State} {n : Nat} {p : PeerEntry} (found : peerOf n s = some p) : p ∈ s.peers ∧ p.number = n :=
  ⟨List.mem_of_find?_eq_some found, by simpa using List.find?_some found⟩

theorem peerOf_none {s : State} {n : Nat} (none : peerOf n s = none) : ∀ p ∈ s.peers, p.number ≠ n := fun p mem same => by
  simpa [same] using List.find?_eq_none.mp none p mem

/-- A peer's entry is the only one with its number. -/
theorem Agrees.peer_unique {P : Nat → Prop} {s : State} (h : Agrees P s) {p q : PeerEntry} (memP : p ∈ s.peers)
    (memQ : q ∈ s.peers) (same : p.number = q.number) : p = q :=
  List.inj_on_of_nodup_map (h.numbers.imp Nat.ne_of_lt) memP memQ same

section
variable {fault : FaultClass → FaultName → State → State} (same : ∀ c n u, kept (fault c n u) = kept u)
  (keeps : ∀ {Q : Nat → Prop} {c : FaultClass} {n : FaultName} {u : State}, Agrees Q u → Agrees Q (fault c n u))
include keeps

/-- The overlap test makes the set right for its peer, whatever raise it makes keeps what is right (R84). -/
theorem Agrees.overlapTestBy {P : Nat → Prop} {s : State} (n : Nat) (h : Agrees P s) :
    Agrees (fun m => P m ∨ m = n) (overlapTestBy fault n s) := by
  unfold Machine.overlapTestBy
  split
  · rename_i none
    refine { h with exact := fun m tested => ?_ }
    rcases tested with tested | rfl
    · exact h.exact m tested
    · refine ⟨fun mem => ?_, fun ⟨p, mem, same, _⟩ => absurd same (peerOf_none none p mem)⟩
      obtain ⟨p, memP, same⟩ := h.known m mem
      exact absurd same (peerOf_none none p memP)
  · rename_i p found
    obtain ⟨memP, number⟩ := peerOf_some found
    have decides : (∃ q ∈ s.peers, q.number = n ∧ peerOverlaps q s = true) ↔ peerOverlaps p s = true :=
      ⟨fun ⟨q, memQ, same, overlaps⟩ => h.peer_unique memQ memP (same.trans number.symm) ▸ overlaps,
        fun overlaps => ⟨p, memP, number, overlaps⟩⟩
    have others : ∀ {l : List Nat}, (∀ m, m ≠ n → (m ∈ l ↔ m ∈ s.claims.overlap)) → (n ∈ l ↔ peerOverlaps p s = true) →
        ∀ m, P m ∨ m = n → (m ∈ l ↔ ∃ q ∈ s.peers, q.number = m ∧ peerOverlaps q s = true) := by
      intro l same here m tested
      by_cases is : m = n
      · rw [is, here, decides]
      · rw [same m is, h.exact m (tested.resolve_right is)]
    split
    · rename_i overlaps
      split
      · rename_i inside
        exact { h with exact := others (fun _ _ => Iff.rfl) (iff_of_true (by simpa using inside) overlaps) }
      · refine keeps (h.setOverlap (insertNumber_ascending h.ascending) (fun m mem => ?_)
          (others (fun m other => by simp [mem_insertNumber, other])
            (iff_of_true (by simp [mem_insertNumber]) overlaps)))
        rcases mem_insertNumber.mp mem with rfl | mem
        · exact ⟨p, memP, number⟩
        · exact h.known m mem
    · rename_i apart
      exact h.setOverlap (h.ascending.filter _) (fun m mem => h.known m (mem_eraseNumber.mp mem).2)
        (others (fun m other => by simp [mem_eraseNumber, other]) (iff_of_false (by simp [mem_eraseNumber]) apart))

include same

/-- The overlap test of every peer makes the set right (R85). -/
theorem Agrees.overlapAllBy {P : Nat → Prop} {s : State} (h : Agrees P s) : Agrees (fun _ => True) (overlapAllBy fault s) := by
  have fold : ∀ (l : List Nat) (R : Nat → Prop) (u : State), Agrees R u →
      Agrees (fun m => R m ∨ m ∈ l) (l.foldl (fun t n => Machine.overlapTestBy fault n t) u) := by
    intro l
    induction l with
    | nil => exact fun R u h => h.weaken fun n => by simp
    | cons n l ih =>
      exact fun R u h => (ih _ _ (h.overlapTestBy keeps n)).weaken fun m => by simp only [List.mem_cons, or_assoc, imp_self]
  have peers : (Machine.overlapAllBy fault s).peers = s.peers := kept_peers (kept_overlapAllBy same s)
  exact (fold (s.peers.map PeerEntry.number) P s h).everywhere fun p mem => .inr (List.mem_map_of_mem (peers ▸ mem))

/-- The overlap test after a change of the HELD rectangles: without a change all that was right stays right (R85). -/
theorem Agrees.overlapAfterBy {P : Nat → Prop} {b s : State}
    (h : Agrees (fun n => P n ∧ heldClaims s = heldClaims b) s) : Agrees P (overlapAfterBy fault b s) := by
  unfold Machine.overlapAfterBy
  split
  · rename_i held
    exact h.weaken fun n tested => ⟨tested, held.symm⟩
  · exact (h.overlapAllBy same keeps).weaken fun _ _ => trivial

end

theorem Agrees.raiseFlags {P : Nat → Prop} {s : State} (c : FaultClass) (n : FaultName) (h : Agrees P s) :
    Agrees P (raiseFlags c n s) := h.congr (floorView_raiseFlags c n s)

/-! ### The list is emptied -/

theorem without_held (before after : List CueEntry) (o : CueOutcome) (e : CueEntry) (withdraw : Bool) (s : State) :
    (heldClaims (without before after o e withdraw s)).Sublist (heldClaims s) :=
  (List.filter_sublist (l := s.claims.own)).filter _

theorem withoutAll_held (before : List CueEntry) (o : CueOutcome) (es : List CueEntry) (s : State) :
    (heldClaims (withoutAll before o es s)).Sublist (heldClaims s) := by
  rw [heldClaims, withoutAll_own]
  split
  · exact List.Sublist.refl _
  · exact (List.filter_sublist (l := s.claims.own)).filter _

/-- Several entries leave, none of them running: the overlap set stays right while the HELD rectangles stay. -/
theorem Agrees.withoutAll {before : List CueEntry} (o : CueOutcome) {es : List CueEntry} :
    ∀ {P : Nat → Prop} {s : State}, Agrees P s → s.cues = before ++ es → (∀ e ∈ es, e.stage ≠ .running) →
      Agrees (fun n => P n ∧ heldClaims (withoutAll before o es s) = heldClaims s) (withoutAll before o es s) := by
  induction es with
  | nil => exact fun h _ _ => h.weaken fun n tested => tested.1
  | cons e es ih =>
    intro P s h list still
    obtain ⟨first, others⟩ := List.forall_mem_cons.mp still
    refine (ih (h.without o true list first (.inl rfl)) rfl others).weaken fun n ⟨tested, held⟩ => ?_
    have shorter := without_held before es o e true s
    have less := withoutAll_held before o es (Machine.without before es o e true s)
    have same : heldClaims (Machine.without before es o e true s) = heldClaims s :=
      shorter.eq_of_length_le (held ▸ less.length_le)
    exact ⟨⟨tested, same⟩, held.trans same.symm⟩

/-- Only a head runs. -/
theorem ListShape.still {s : State} (shape : ListShape s) {e : CueEntry} {before after : List CueEntry}
    (list : s.cues = before ++ e :: after) (place : before ≠ [] ∨ headRunning s = false) : e.stage ≠ .running := by
  intro running
  have right := shape.entries (k := before.length) (e := e) (by rw [list, getElem?_place])
  have zero : before = [] := List.length_eq_zero_iff.mp (right.head (.inr running))
  have runs : headRunning s = true := by simp [headRunning, list, zero, running]
  rcases place with some | still
  · exact some zero
  · simp [runs] at still

/-- Every entry but a running head leaves (R41, R50). -/
theorem Agrees.removeIdle {P : Nat → Prop} {s : State} (o : CueOutcome) (h : Agrees P s) :
    Agrees (fun n => P n ∧ heldClaims (removeIdle o s) = heldClaims s) (removeIdle o s) := by
  cases runs : headRunning s with
  | false =>
    rw [removeIdle_all runs]
    refine h.withoutAll o rfl fun e mem => ?_
    obtain ⟨before, after, list⟩ := List.append_of_mem mem
    exact h.shape.still list (.inr runs)
  | true =>
    obtain ⟨e, rest, list, running⟩ := headRunning_true runs
    rw [removeIdle_behind list running]
    refine h.withoutAll o list fun f mem => ?_
    obtain ⟨before, after, split⟩ := List.append_of_mem mem
    exact h.shape.still (before := e :: before) (by rw [list, split]; rfl) (.inl (List.cons_ne_nil _ _))

/-! ### A fault is raised -/

/-- Entry to FAULT_STOP keeps what is right: the list fails, every peer is tested after a change (R166). -/
theorem Agrees.enterFaultStop {P : Nat → Prop} {s : State} (h : Agrees P s) (on : onBus s = true) :
    Agrees P (enterFaultStop s) := by
  have view := floorView_setFaultStop on
  have failed : Agrees (fun n => P n ∧ heldClaims (failList (setFaultStop s)) = heldClaims s) (failList (setFaultStop s)) := by
    have ended : ∀ u : State, floorView (if headRunning u then setHeadEnding (.failed .fault) u else u) = floorView u := fun u => by
      split <;> simp
    have same := (ended (setFaultStop s)).trans view
    exact ((h.congr same).removeIdle _).weaken fun n ⟨tested, held⟩ => ⟨tested, held.trans (view_heldClaims same).symm⟩
  exact (failed.overlapAfterBy kept_raiseFlags fun h => h.raiseFlags _ _).congr (floorView_faultMotion _)

theorem onBus_of_active {s : State} (active : s.control.station = .active) : onBus s = true := by simp [onBus, active]

theorem Agrees.raise {P : Nat → Prop} {s : State} (c : FaultClass) (n : FaultName) (h : Agrees P s) : Agrees P (raise c n s) := by
  unfold Machine.raise
  dsimp only
  split
  · rename_i severe
    refine (h.raiseFlags c n).enterFaultStop ?_
    exact (view_onBus (floorView_raiseFlags c n s)).trans (onBus_of_active severe.1)
  · exact h.raiseFlags c n

theorem Agrees.overlapTest {P : Nat → Prop} {s : State} (n : Nat) (h : Agrees P s) :
    Agrees (fun m => P m ∨ m = n) (overlapTest n s) := h.overlapTestBy (fun h => h.raise _ _) n

theorem Agrees.overlapAll {P : Nat → Prop} {s : State} (h : Agrees P s) : Agrees (fun _ => True) (overlapAll s) :=
  h.overlapAllBy kept_raise fun h => h.raise _ _

theorem Agrees.overlapAfter {P : Nat → Prop} {b s : State} (h : Agrees (fun n => P n ∧ heldClaims s = heldClaims b) s) :
    Agrees P (overlapAfter b s) := h.overlapAfterBy kept_raise fun h => h.raise _ _

/-- A station that an update leaves on the bus, it found there. -/
theorem update_onBus {s t : State} (h : Update s t) : onBus t = onBus s := by
  cases h with
  | marker => rw [setMarker_eq]; rfl
  | report => rw [pushReport_eq]; rfl
  | flags => rw [raiseFlags_eq]; rfl
  | stop c n s active => rw [setFaultStop_eq, raiseFlags_eq]; simp [onBus, active]
  | _ => rfl

theorem does_onBus {s t : State} (h : Does s t) : onBus t = onBus s := by
  induction h with
  | refl => rfl
  | tail _ last ih => exact (update_onBus last).trans ih

end Sys2Proof.Machine
end

section
/-! The entry whose plan is made or on its way, the waiting head or the second entry behind a running one, takes another stage:
the agreement with its new rectangles, and the route test, the loss of a claim and the settling by it (R46, R70, R75, R80, R81). -/
namespace Sys2Proof.Machine

/-! ### The entry at a place of planning -/

/-- The place of an entry that may have a plan and has not begun its move: the head while none runs, else the second one. -/
structure PlanPlace (before : List CueEntry) (f : CueEntry) (after : List CueEntry) (s : State) : Prop where
  list : s.cues = before ++ f :: after
  place : (before = [] ∧ headRunning s = false) ∨ (before.length = 1 ∧ headRunning s = true)

/-- The entry at a place replaced, with the rectangles of its stage. -/
def restaged (before after : List CueEntry) (f : CueEntry) (s : State) : State :=
  { s with
    cues := before ++ f :: after
    claims := { s.claims with
      own := (s.claims.own.filter fun o => !ownedAt before.length o) ++ stageClaims (kindAt before.length) f } }

section
variable {s : State} {before after : List CueEntry} {f f' : CueEntry} (place : PlanPlace before f after s)
include place

theorem PlanPlace.found : s.cues[before.length]? = some f := by rw [place.list, getElem?_place]

/-- The starts of the place are those of its plan. -/
theorem PlanPlace.shape_cases (shape : ListShape s) :
    (before = [] ∧ onBus s = true ∧ Still s ∧ Waits (configOf s) (planStarts before.length s) f ∧ (∀ g ∈ after, Unread g) ∧
        s.claims.own = parkedClaim s :: stageClaims .leg f) ∨
      ∃ e c p, before = [e] ∧ RunsHead s e (f :: after) c p ∧ Moves s c p ∧ planStarts before.length s = p.target := by
  obtain ⟨list, place⟩ := place
  cases shape with
  | empty none => simp [none] at list
  | waiting e rest head on still waits later own =>
    obtain ⟨rfl, _⟩ | ⟨_, runs⟩ := place
    · obtain ⟨rfl, rfl⟩ : e = f ∧ rest = after := by simpa [head] using list
      exact .inl ⟨rfl, on, still, waits, later, own⟩
    · exact absurd ((headRunning_cons head).mp runs) waits.still
  | running e rest c p runs moves =>
    obtain ⟨_, notRuns⟩ | ⟨one, _⟩ := place
    · simp [runs.headRunning] at notRuns
    · obtain ⟨b, rfl⟩ := List.length_eq_one_iff.mp one
      obtain ⟨rfl, rfl⟩ : e = b ∧ rest = f :: after := by simpa [runs.list] using list
      exact .inr ⟨e, c, p, rfl, runs, moves, by simp [planStarts, runs.list, runs.planned.plan]⟩

/-- The rectangles of the place stand at the end of the own claim set. -/
theorem PlanPlace.own (shape : ListShape s) :
    (s.claims.own.filter fun o => !ownedAt before.length o) ++ stageClaims (kindAt before.length) f = s.claims.own := by
  rcases place.shape_cases shape with ⟨rfl, _, _, _, _, own⟩ | ⟨e, c, p, rfl, runs, _⟩
  · rw [own, waitingClaims_without]
    rfl
  · rw [runs.own, runningClaims_without _ _ _ (by simp)]
    simp [kindAt, secondClaims]

theorem restaged_shape (shape : ListShape s) (waits : Waits (configOf s) (planStarts before.length s) f')
    (second : before ≠ [] → f'.stage ≠ .groupWait) : ListShape (restaged before after f' s) := by
  rcases place.shape_cases shape with ⟨rfl, on, still, _, later, own⟩ | ⟨e, c, p, rfl, runs, moves, starts⟩
  · refine .waiting f' after rfl on ⟨still.motion, still.plan, still.leg1Passed⟩ waits later ?_
    show (s.claims.own.filter fun o => !ownedAt 0 o) ++ stageClaims .leg f' = parkedClaim s :: stageClaims .leg f'
    rw [own, waitingClaims_without]
    rfl
  · rw [starts] at waits
    refine .running e (f' :: after) c p ⟨rfl, runs.on, runs.stage, runs.mode, runs.planned,
      ⟨waits, second (by simp), runs.second.2.2⟩, ?_⟩ ⟨moves.motion, moves.plan, moves.time, moves.setpoint, moves.passed, moves.before⟩
    show (s.claims.own.filter fun o => !ownedAt 1 o) ++ stageClaims .nextLeg f' = headClaims s e ++ stageClaims .nextLeg f'
    rw [runs.own, runningClaims_without _ _ _ (by simp)]
    simp

theorem planFootprint_restaged {j : Nat} (other : j ≠ before.length) :
    planFootprint j (restaged before after f' s) = planFootprint j s := by
  refine planFootprint_of_list ?_
  rw [place.list, restaged]
  rcases Nat.lt_or_gt_of_ne other with less | more
  · rw [List.getElem?_append_left less, List.getElem?_append_left less]
  · obtain ⟨i, rfl⟩ := Nat.exists_eq_add_of_lt more
    rw [List.getElem?_append_right (by omega), List.getElem?_append_right (by omega),
      show before.length + i + 1 - before.length = i + 1 by omega]
    rfl

theorem exemptFor_restaged {o : OwnClaim} (free : ownedAt before.length o = false) :
    exemptFor o (restaged before after f' s) = exemptFor o s := by
  cases kind : o.claim.kind with
  | parked => simp only [exemptFor, kind]
  | leg =>
    rw [ownedAt_leg kind] at free
    exact exemptFor_leg kind (planFootprint_restaged place fun zero => by simp [← zero] at free)
  | nextLeg =>
    rw [ownedAt_nextLeg kind] at free
    exact exemptFor_nextLeg kind (planFootprint_restaged place fun one => by simp [← one] at free)

end

theorem groupWait_of_phase {e f : CueEntry} (same : groupPhase f.stage = groupPhase e.stage) :
    f.stage = .groupWait ↔ e.stage = .groupWait := by
  cases stage : e.stage <;> cases stage' : f.stage <;> simp_all [groupPhase]

/-- An entry keeps its group and what its stage means to the group's record: so do all entries. -/
theorem groupParts_replace {before after : List CueEntry} {f f' : CueEntry} (group : f'.group = f.group)
    (phase : groupPhase f'.stage = groupPhase f.stage) : groupParts (before ++ f' :: after) = groupParts (before ++ f :: after) := by
  rw [groupParts_append, groupParts_append, groupParts_cons, groupParts_cons, group, phase]

theorem waiterOf_replace {before after : List CueEntry} {f f' : CueEntry} (group : f'.group = f.group)
    (phase : groupPhase f'.stage = groupPhase f.stage) (own : f.stage = .groupWait → ownDuration f' = ownDuration f) :
    waiterOf (before ++ f' :: after) = waiterOf (before ++ f :: after) := by
  cases before with
  | nil =>
    show (if f'.stage = .groupWait then _ else _) = if f.stage = .groupWait then _ else _
    by_cases waits : f.stage = .groupWait
    · rw [if_pos waits, if_pos ((groupWait_of_phase phase).mpr waits), group, own waits]
    · rw [if_neg waits, if_neg fun h => waits ((groupWait_of_phase phase).mp h)]
  | cons b before => rfl

/-- The exempt footprints or the absence of HELD rectangles keep the overlap test of the place alone. -/
def QuietRestage (kind : ClaimKind) (f f' : CueEntry) : Prop :=
  (∀ o ∈ stageClaims kind f', isHeld o = false) ∨ f'.plan.map Plan.startFootprint = f.plan.map Plan.startFootprint

section
variable {P : Nat → Prop} {s : State} {before after : List CueEntry} {f f' : CueEntry} (h : Agrees P s)
  (place : PlanPlace before f after s) (waits : Waits (configOf s) (planStarts before.length s) f') (group : f'.group = f.group)
  (phase : groupPhase f'.stage = groupPhase f.stage)
include h place waits group phase

/-- The entry takes another stage: all stays in agreement, and the overlap set while the HELD rectangles stay. -/
theorem Agrees.restage (own : f.stage = .groupWait → ownDuration f' = ownDuration f) :
    Agrees (fun n => P n ∧ heldClaims (restaged before after f' s) = heldClaims s ∧ QuietRestage (kindAt before.length) f f')
      (restaged before after f' s) := by
  have second : before ≠ [] → f'.stage ≠ .groupWait := fun some waiting =>
    some (List.length_eq_zero_iff.mp ((h.shape.entries place.found).head (.inl ((groupWait_of_phase phase).mp waiting))))
  refine ⟨⟨h.sane, h.numbers, ?_, ?_, h.offBus, h.ascending, h.known, fun n ⟨tested, held, quiet⟩ => ?_⟩,
    restaged_shape place h.shape waits second⟩
  · show RecordsRight _ (groupParts (before ++ f' :: after)) (waiterOf (before ++ f' :: after)) _ _
    rw [groupParts_replace group phase, waiterOf_replace group phase own, ← place.list]
    exact h.records
  · show FifoRight _ (waiterOf (before ++ f' :: after)) _ _ _
    rw [waiterOf_replace group phase own, ← place.list]
    exact h.fifo
  · have exempt : ∀ o ∈ heldClaims (restaged before after f' s),
        exemptFor o (restaged before after f' s) = exemptFor o s := fun o mem => by
      obtain ⟨mem, isHeld⟩ := List.mem_filter.mp mem
      rcases List.mem_append.mp mem with mem | mem
      · exact exemptFor_restaged place (by simpa using (List.mem_filter.mp mem).2)
      · rcases quiet with none | same
        · simp [none o mem] at isHeld
        · refine exemptFor_congr (fun k => ?_) o
          by_cases here : k = before.length
          · rw [planFootprint, planFootprint, here, place.found]
            show ((before ++ f' :: after)[before.length]?.bind CueEntry.plan).map Plan.startFootprint = _
            rw [getElem?_place]
            exact same
          · exact planFootprint_restaged place here
    have tested := h.exact n tested
    rw [show (restaged before after f' s).claims.overlap = s.claims.overlap from rfl, tested]
    simp only [peerOverlaps_congr held exempt]
    rfl

/-- Without HELD rectangles before and after, the overlap set stays as right as it was. -/
theorem Agrees.restageQuietly (here : f.stage ≠ .groupWait)
    (before' : ∀ o ∈ stageClaims (kindAt before.length) f, isHeld o = false)
    (after' : ∀ o ∈ stageClaims (kindAt before.length) f', isHeld o = false) : Agrees P (restaged before after f' s) := by
  have none : ∀ {l : List OwnClaim}, (∀ o ∈ l, isHeld o = false) → l.filter isHeld = [] := fun all =>
    List.filter_eq_nil_iff.mpr fun o mem => by simp [all o mem]
  have held : heldClaims (restaged before after f' s) = heldClaims s := by
    rw [heldClaims, heldClaims, ← place.own h.shape]
    show List.filter isHeld (_ ++ _) = _
    rw [List.filter_append, List.filter_append, none before', none after']
  exact (h.restage place waits group phase fun waiting => absurd waiting here).weaken fun n tested => ⟨tested, held, .inl after'⟩

end

/-! ### The places of planning -/

/-- An entry past QUEUED whose move has not begun stands at a place of planning. -/
theorem planPlace_of {s : State} {before after : List CueEntry} {e : CueEntry} (shape : ListShape s)
    (list : s.cues = before ++ e :: after) (past : e.stage ≠ .queued) (still : e.stage ≠ .running) :
    PlanPlace before e after s := by
  have right := shape.entries (k := before.length) (e := e) (by rw [list, getElem?_place])
  refine ⟨list, (right.place past).imp (fun zero => ?_) id⟩
  obtain rfl := List.length_eq_zero_iff.mp zero
  refine ⟨rfl, ?_⟩
  rw [← Bool.not_eq_true, headRunning_cons list]
  exact still

theorem PlanPlace.waits {s : State} {before after : List CueEntry} {f : CueEntry} (place : PlanPlace before f after s)
    (shape : ListShape s) : Waits (configOf s) (planStarts before.length s) f := by
  rcases place.shape_cases shape with ⟨_, _, _, waits, _⟩ | ⟨e, c, p, _, runs, _, starts⟩
  · exact waits
  · rw [starts]
    exact runs.second.1

theorem PlanPlace.on {s : State} {before after : List CueEntry} {f : CueEntry} (place : PlanPlace before f after s)
    (shape : ListShape s) : onBus s = true := by
  rcases place.shape_cases shape with ⟨_, on, _⟩ | ⟨e, c, p, _, runs, _⟩
  · exact on
  · exact runs.on

theorem Waits.of_past {cfg : Configuration} {starts : PerAxis Position} {e : CueEntry} (waits : Waits cfg starts e)
    (past : e.stage ≠ .queued) : ∃ c p, modeRight e ∧ Planned cfg e c p ∧ p.start = starts := by
  cases waits with
  | unread unread => exact absurd unread.queued past
  | planned c p _ _ mode _ planned start => exact ⟨c, p, mode, planned, start⟩

theorem stageClaims_early {kind : ClaimKind} {e : CueEntry}
    (early : e.stage = .queued ∨ e.stage = .routing ∨ e.stage = .claiming) : ∀ o ∈ stageClaims kind e, isHeld o = false := by
  intro o mem
  rcases early with stage | stage | stage <;> simp only [stageClaims, stage] at mem
  · exact absurd mem List.not_mem_nil
  · exact absurd mem List.not_mem_nil
  · obtain ⟨_, _, rfl⟩ := List.mem_map.mp mem
    rfl

theorem stageClaims_routing {kind : ClaimKind} {e : CueEntry} (routing : e.stage = .routing) : stageClaims kind e = [] := by
  simp only [stageClaims, routing]

/-! ### The route test (R75, R76) -/

theorem Planned.free {cfg : Configuration} {e : CueEntry} {c : ShotContent} {p : Plan} (h : Planned cfg e c p)
    (early : e.stage = .routing ∨ e.stage = .claiming ∨ e.stage = .claimed) : p.common = none := by
  by_contra some
  obtain ⟨n, common⟩ := Option.ne_none_iff_exists'.mp some
  rcases (h.common n common).1 with stage | stage <;> rcases early with is | is | is <;> simp [stage] at is

/-- Another candidate chosen, or none, of a plan with no common N: still a plan as built. -/
theorem planFrom_chosen {cfg : Configuration} {c : ShotContent} {p : Plan} (built : planFrom cfg c p) (free : p.common = none)
    (chosen : Option Nat) : planFrom cfg c { p with chosen := chosen } := by
  obtain ⟨target, distance, direction, axisDuration, footprint, duration, candidates⟩ := planFrom_iff.mp built
  rw [free] at candidates
  exact planFrom_iff.mpr ⟨target, distance, direction, axisDuration, footprint, duration, by rw [free]; exact candidates⟩

theorem routedEntry_early (e : CueEntry) (p : Plan) (i : Nat) (r : Route) :
    (routedEntry e p i r).stage = .claiming ∧ r.legs ≠ [] ∨ (routedEntry e p i r).stage = .claimed ∧ r.legs = [] := by
  unfold routedEntry
  by_cases none : r.legs = [] <;> simp [none]

theorem routedEntry_legs {e : CueEntry} {p : Plan} {i : Nat} {r : Route} (candidate : p.candidates[i]? = some r) :
    entryLegs (routedEntry e p i r) = r.legs := by
  simp [entryLegs, routedEntry, chosenRoute, candidate]

theorem Planned.choose {cfg : Configuration} {e : CueEntry} {c : ShotContent} {p : Plan} {i : Nat} {r : Route}
    (h : Planned cfg e c p) (routing : e.stage = .routing) (candidate : p.candidates[i]? = some r) :
    Planned cfg (routedEntry e p i r) c { p with chosen := some i } where
  copy := h.copy
  plan := rfl
  built := planFrom_chosen h.built (h.free (.inl routing)) _
  range := h.range
  unrouted := by
    simp only [routedEntry]
    split <;> simp
  routed := fun _ => ⟨i, (List.getElem?_eq_some_iff.mp candidate).1, rfl⟩
  legs := fun claiming => by
    rcases routedEntry_early e p i r with ⟨_, some⟩ | ⟨stage, _⟩
    · rw [routedEntry_legs candidate]
      exact some
    · simp [stage] at claiming
  common := fun n common => by simp [h.free (.inl routing)] at common

/-- The rectangles of an entry whose route has just been chosen are PENDING. -/
theorem stageClaims_routed {kind : ClaimKind} {e : CueEntry} {p : Plan} {i : Nat} {r : Route}
    (candidate : p.candidates[i]? = some r) :
    stageClaims kind (routedEntry e p i r) = pendingClaims kind ⟨e.priority, e.retry⟩ r.legs := by
  have legs := routedEntry_legs (e := e) candidate
  rcases routedEntry_early e p i r with ⟨stage, _⟩ | ⟨stage, none⟩
  · simp only [stageClaims, stage, legs]
    rfl
  · simp only [stageClaims, stage, legs, none]
    rfl

theorem busAnnounced_frame (legs : List Leg) (on : Bool) (b : BusInterface) :
    (busAnnounced legs on b).transmission.map Transmission.frame = b.transmission.map Transmission.frame := by
  unfold busAnnounced
  split
  · rfl
  · rw [Option.map_map]
    rfl

theorem Agrees.routeTest {P : Nat → Prop} {s : State} (k : Nat) (h : Agrees P s) : Agrees P (routeTest k s) := by
  by_cases settled : ∀ e, s.cues[k]? = some e → e.stage ≠ .routing
  · rw [routeTest_settled settled]
    exact h
  push Not at settled
  obtain ⟨e, found, routing⟩ := settled
  obtain ⟨before, after, list, rfl⟩ := exists_place found
  have place := planPlace_of h.shape list (by simp [routing]) (by simp [routing])
  obtain ⟨c, p, mode, planned, start⟩ := (place.waits h.shape).of_past (by simp [routing])
  cases first : p.candidates.findIdx? (routeFree p (obstacles s)) with
  | none =>
    rw [routeTest_blocked list routing planned.plan ((allBlocked_iff p _).mp first)]
    exact h
  | some i =>
    obtain ⟨r, free⟩ := (firstFree_iff p _ i).mp first
    have stage := routedEntry_early e p i r
    have past : (routedEntry e p i r).stage ≠ .queued ∧ (routedEntry e p i r).stage ≠ .running ∧
        (routedEntry e p i r).stage ≠ .groupWait := by rcases stage with ⟨is, _⟩ | ⟨is, _⟩ <;> simp [is]
    have claims : s.claims.own.filter (fun o => !ownedAt before.length o) = s.claims.own := by
      simpa [stageClaims_routing routing] using place.own h.shape
    have quiet : ∀ o ∈ stageClaims (kindAt before.length) (routedEntry e p i r), isHeld o = false := fun o mem => by
      rw [stageClaims_routed free.1] at mem
      obtain ⟨_, _, rfl⟩ := List.mem_map.mp mem
      rfl
    refine (h.restageQuietly (f' := routedEntry e p i r) place
      (.planned c _ past.1 past.2.1 mode (fun waiting => absurd waiting past.2.2) (planned.choose routing free.1) start) rfl
      (by rcases stage with ⟨is, _⟩ | ⟨is, _⟩ <;> rw [is, routing] <;> rfl) (by simp [routing])
      (stageClaims_early (.inr (.inl routing))) quiet).congr ?_
    have same : restaged before after (routedEntry e p i r) s = { s with
        cues := before ++ routedEntry e p i r :: after
        claims := claimsAnnounced before.length e r.legs s.claims } := by
      rw [restaged, claims, stageClaims_routed free.1]
      rfl
    rw [routeTest_free list routing planned.plan free, same]
    exact floorView_bus { s with
      cues := before ++ routedEntry e p i r :: after
      claims := claimsAnnounced before.length e r.legs s.claims } (busAnnounced_readyFifo _ _ _) (busAnnounced_frame _ _ _)

theorem Agrees.retestRoutes {P : Nat → Prop} {s : State} (h : Agrees P s) : Agrees P (retestRoutes s) :=
  (h.routeTest 0).routeTest 1

/-! ### The loss of a claim and the settling (R79 to R81) -/

@[simp] theorem floorView_setOwn (own : List OwnClaim) (s : State) :
    floorView (setOwn own s) = floorView { s with claims := { s.claims with own := own } } := by
  rw [setOwn_eq]
  exact floorView_bus { s with claims := { s.claims with own := own } } rfl rfl

theorem Planned.unroute {cfg : Configuration} {e f : CueEntry} {c : ShotContent} {p : Plan} (h : Planned cfg e c p)
    (claiming : e.stage = .claiming) (copy : f.copy = e.copy) (plan : f.plan = some { p with chosen := none })
    (routing : f.stage = .routing) : Planned cfg f c { p with chosen := none } where
  copy := copy.trans h.copy
  plan := plan
  built := planFrom_chosen h.built (h.free (.inr (.inl claiming))) _
  range := h.range
  unrouted := fun _ => rfl
  routed := fun past => absurd routing past
  legs := fun claiming => by simp [routing] at claiming
  common := fun n common => by simp [h.free (.inr (.inl claiming))] at common

/-- A CLAIMING entry that lost (R80). -/
def yieldedEntry (e : CueEntry) (p : Plan) : CueEntry :=
  { e with retry := min 15 (e.retry + 1), plan := some { p with chosen := none }, stage := .routing }

/-- A CLAIMING entry that settled (R81). -/
def settledEntry (e : CueEntry) : CueEntry := { e with stage := .claimed }

/-- A CLAIMING entry loses: its rectangles leave, it is routed again (R80). -/
theorem Agrees.loseClaim {P : Nat → Prop} {s : State} {k : Nat} {e : CueEntry} (h : Agrees P s) (found : s.cues[k]? = some e)
    (claiming : e.stage = .claiming) : Agrees P (loseClaim k s) := by
  obtain ⟨before, after, list, rfl⟩ := exists_place found
  have place := planPlace_of h.shape list (by simp [claiming]) (by simp [claiming])
  obtain ⟨c, p, mode, planned, start⟩ := (place.waits h.shape).of_past (by simp [claiming])
  have restaged : Agrees P (restaged before after (yieldedEntry e p) s) :=
    h.restageQuietly place (.planned c _ nofun nofun mode nofun
      (planned.unroute claiming rfl rfl rfl) start) rfl (by rw [claiming]; rfl) (by simp [claiming])
      (stageClaims_early (.inr (.inr claiming))) (stageClaims_early (.inr (.inl rfl)))
  refine Agrees.routeTest _ (restaged.congr ?_)
  have list' : (setOwn (s.claims.own.filter fun o => !ownedAt before.length o) s).cues = before ++ e :: after := by
    rw [setOwn_eq]
    exact list
  rw [floorView_setMarker, modifyCue_at _ list', setOwn_eq, planned.plan]
  refine (floorView_bus { s with
    cues := before ++ yieldedEntry e p :: after
    claims := { s.claims with own := s.claims.own.filter fun o => !ownedAt before.length o, settleTimer := false } }
    rfl rfl).trans ?_
  simp only [Machine.restaged, stageClaims_routing (e := yieldedEntry e p) rfl, List.append_nil]
  rfl

/-- The rectangles of the place become HELD with its stage (R81). -/
theorem holdClaims_place {s : State} {before after : List CueEntry} {e : CueEntry} (place : PlanPlace before e after s)
    (shape : ListShape s) (claiming : e.stage = .claiming) :
    holdClaims before.length s.claims.own = (s.claims.own.filter fun o => !ownedAt before.length o) ++
      stageClaims (kindAt before.length) (settledEntry e) := by
  conv_lhs => rw [← place.own shape]
  rw [holdClaims, List.map_append]
  congr 1
  · refine (List.map_congr_left fun o mem => ?_).trans (List.map_id _)
    have free : ownedAt before.length o = false := by simpa using (List.mem_filter.mp mem).2
    rw [free]
    rfl
  · have owned : ∀ o : OwnClaim, o.claim.kind = kindAt before.length → ownedAt before.length o = true := fun o kind => by
      rcases place.place with ⟨rfl, _⟩ | ⟨one, _⟩
      · rw [ownedAt_leg (kind.trans rfl)]
        rfl
      · rw [one] at kind ⊢
        rw [ownedAt_nextLeg (kind.trans rfl)]
        rfl
    simp only [stageClaims, claiming, settledEntry, pendingClaims, heldLegs, List.map_map]
    refine List.map_congr_left fun x _ => ?_
    obtain ⟨l, i⟩ := x
    simp [owned ⟨⟨l.rect, kindAt before.length, .pending ⟨e.priority, e.retry⟩⟩, i + 1⟩ rfl]

theorem Planned.settle {cfg : Configuration} {e f : CueEntry} {c : ShotContent} {p : Plan} (h : Planned cfg e c p)
    (routed : e.stage = .claiming) (copy : f.copy = e.copy) (plan : f.plan = e.plan)
    (claimed : f.stage = .claimed) : Planned cfg f c p where
  copy := copy.trans h.copy
  plan := plan.trans h.plan
  built := h.built
  range := h.range
  unrouted := fun routing => by simp [claimed] at routing
  routed := fun _ => h.routed (by simp [routed])
  legs := fun claiming => by simp [claimed] at claiming
  common := fun n common => by simp [h.free (.inr (.inl routed))] at common

/-- The entry settled: CLAIMED, its rectangles HELD; every peer is to be tested (R81). -/
theorem Agrees.settled {P : Nat → Prop} {s : State} {k : Nat} {e : CueEntry} (h : Agrees P s) (found : s.cues[k]? = some e)
    (claiming : e.stage = .claiming) : Agrees (fun _ => False)
      (modifyCue k (fun e => { e with stage := .claimed }) (stopClaimTimers (setOwn (holdClaims k s.claims.own) s))) := by
  obtain ⟨before, after, list, rfl⟩ := exists_place found
  have place := planPlace_of h.shape list (by simp [claiming]) (by simp [claiming])
  obtain ⟨c, p, mode, planned, start⟩ := (place.waits h.shape).of_past (by simp [claiming])
  have restaged := h.restage (f' := settledEntry e) place (.planned c p nofun nofun mode nofun
    (planned.settle claiming rfl rfl rfl) start) rfl (by rw [claiming]; rfl) (by simp [claiming])
  refine (restaged.weaken fun _ no => no.elim).congr ?_
  have list' : (stopClaimTimers (setOwn (holdClaims before.length s.claims.own) s)).cues = before ++ e :: after := by
    rw [setOwn_eq]
    exact list
  rw [modifyCue_at _ list', setOwn_eq]
  refine (floorView_bus { s with
    cues := before ++ settledEntry e :: after
    claims := { s.claims with own := holdClaims before.length s.claims.own, settleTimer := false, claimWaitTimer := false } }
    rfl rfl).trans ?_
  rw [holdClaims_place place h.shape claiming]
  rfl

end Sys2Proof.Machine
end

section
/-! The planning read and the building of a plan keep the agreement, at the head and behind a running one (R28, R42, R46, R61,
R62, R167). -/
namespace Sys2Proof.Machine

/-! ### The raises of a clamped plan (R15, R167) -/

/-- A raise that leaves the station state is one of the flags alone. -/
theorem raise_calm {c : FaultClass} {n : FaultName} {s : State} (calm : (raise c n s).control.station = s.control.station) :
    raise c n s = raiseFlags c n s := by
  by_cases severe : s.control.station = .active ∧ isStop s c = true
  · rw [(raise_stopped n severe.1 severe.2).control, severe.1] at calm
    cases calm
  · exact raise_flags_only c n s ((not_and_or.mp severe).imp_right Bool.eq_false_iff.mpr)

theorem raiseLimits_calm : ∀ {l : List Axis} {s : State}, (raiseLimits l s).2 = true →
    floorView (raiseLimits l s).1 = floorView s ∧ (raiseLimits l s).1.cues = s.cues
  | [], _, _ => ⟨rfl, rfl⟩
  | a :: l, s, done => by
    unfold raiseLimits at done ⊢
    dsimp only at done ⊢
    by_cases calm : (raise .axisLimit (.axis a) s).control.station = s.control.station
    · rw [if_pos calm] at done ⊢
      obtain ⟨view, cues⟩ := raiseLimits_calm done
      rw [raise_calm calm] at view cues ⊢
      exact ⟨view.trans (floorView_raiseFlags _ _ s), cues.trans (by rw [raiseFlags_eq])⟩
    · rw [if_neg calm] at done
      cases done

theorem Agrees.raiseLimits {P : Nat → Prop} : ∀ (l : List Axis) {s : State}, Agrees P s → Agrees P (raiseLimits l s).1
  | [], _, h => h
  | a :: l, s, h => by
    unfold Machine.raiseLimits
    dsimp only
    split
    · exact (h.raise _ _).raiseLimits l
    · exact h.raise _ _

/-! ### Entering ROUTING (R62) -/

theorem planFrom_built (cfg : Configuration) (starts : PerAxis Position) (c : ShotContent) :
    planFrom cfg c (buildPlan cfg starts c) := rfl

theorem planned_blocked {cfg : Configuration} {starts : PerAxis Position} (e : CueEntry) (c : ShotContent)
    (range : (buildPlan cfg starts c).duration ≤ maxDuration) :
    Planned cfg (blockedEntry e c (buildPlan cfg starts c)) c (buildPlan cfg starts c) where
  copy := rfl
  plan := rfl
  built := planFrom_built cfg starts c
  range := range
  unrouted := fun _ => rfl
  routed := fun past => absurd rfl past
  legs := fun claiming => nomatch claiming
  common := fun _ common => nomatch common

/-- A QUEUED entry takes its plan and is routed (R62). -/
theorem Agrees.enterRouting {P : Nat → Prop} {s : State} {before after : List CueEntry} {f : CueEntry} {c : ShotContent}
    (h : Agrees P s) (place : PlanPlace before f after s) (queued : f.stage = .queued)
    (range : (buildPlan (configOf s) (planStarts before.length s) c).duration ≤ maxDuration) :
    Agrees P (enterRouting before.length c (buildPlan (configOf s) (planStarts before.length s) c) s) := by
  have mode : modeRight f := (h.shape.entries place.found).mode
  refine Agrees.routeTest _ ((h.restageQuietly (f' := blockedEntry f c (buildPlan (configOf s) (planStarts before.length s) c))
    place (.planned c _ nofun nofun mode nofun (planned_blocked f c range) rfl) rfl (by rw [queued]; rfl) (by simp [queued])
    (stageClaims_early (.inl queued)) (stageClaims_early (.inr (.inl rfl)))).congr ?_)
  have own := place.own h.shape
  have none : stageClaims (kindAt before.length) f = [] := by simp only [stageClaims, queued]
  rw [none, List.append_nil] at own
  rw [floorView_startClaimWait, modifyCue_at _ place.list]
  simp only [restaged, stageClaims_routing (e := blockedEntry f c _) rfl, List.append_nil, own]
  rfl

/-! ### The planning read -/

/-- A QUEUED entry leaves without a rectangle. -/
theorem Agrees.withoutQueued {P : Nat → Prop} {s : State} {before after : List CueEntry} {f : CueEntry} (o : CueOutcome)
    (withdraw : Bool) (h : Agrees P s) (place : PlanPlace before f after s) (queued : f.stage = .queued) :
    Agrees P (Machine.without before after o f withdraw s) := by
  refine (h.without o withdraw place.list (by simp [queued]) (.inr (.inl (by simp [queued])))).weaken fun n tested => ⟨tested, ?_⟩
  have own := place.own h.shape
  have none : stageClaims (kindAt before.length) f = [] := by simp only [stageClaims, queued]
  rw [none, List.append_nil] at own
  exact congrArg (List.filter isHeld) own

theorem Agrees.planAt {P : Nat → Prop} {s : State} {before after : List CueEntry} {f : CueEntry} (h : Agrees P s)
    (place : PlanPlace before f after s) (queued : f.stage = .queued) : Agrees P (planAt before.length s).1 := by
  unfold Machine.planAt
  simp only [place.found]
  split
  · exact h
  split
  · rw [removeAt_eq _ _ place.list]
    exact h.withoutQueued _ _ place queued
  rename_i c _
  have agrees := h.raiseLimits (clampedAxes (configOf s) (planStarts before.length s) c)
  cases limits : Machine.raiseLimits (clampedAxes (configOf s) (planStarts before.length s) c) s with | mk t done =>
  rw [limits] at agrees
  cases done with
  | false => exact agrees
  | true =>
    obtain ⟨view, cues⟩ := raiseLimits_calm (s := s) (by rw [limits])
    rw [limits] at view cues
    have place' : PlanPlace before f after t :=
      ⟨cues.trans place.list, by rw [headRunning, cues]; exact place.place⟩
    have starts : planStarts before.length t = planStarts before.length s := by
      rw [planStarts, view_setpoint view, cues]
      rfl
    dsimp only
    split
    · rw [removeAt_eq _ _ place'.list]
      exact agrees.withoutQueued _ _ place' queued
    · rename_i range
      have routed := agrees.enterRouting (c := c) place' queued (by rw [starts, view_config view]; exact Nat.le_of_not_lt range)
      rw [starts, view_config view] at routed
      exact routed

/-! ### The second entry (R46) -/

theorem prePlanAllowed_place {s : State} (allowed : prePlanAllowed s = true) :
    ∃ e f more, PlanPlace [e] f more s ∧ f.stage = .queued := by
  unfold prePlanAllowed at allowed
  split at allowed
  · rename_i e f more list
    simp only [Bool.and_eq_true, beq_iff_eq] at allowed
    obtain ⟨⟨⟨running, queued⟩, _⟩, _⟩ := allowed
    exact ⟨e, f, more, ⟨list, .inr ⟨rfl, (headRunning_cons list).mpr running⟩⟩, queued⟩
  · cases allowed

theorem Agrees.fillSecond {P : Nat → Prop} : ∀ (n : Nat) {s : State}, Agrees P s → Agrees P (fillSecond n s)
  | 0, _, h => h
  | n + 1, s, h => by
    unfold Machine.fillSecond
    split
    · rename_i allowed
      obtain ⟨e, f, more, place, queued⟩ := prePlanAllowed_place allowed
      have read := h.planAt place queued
      rw [List.length_singleton] at read
      split
      · rename_i t made
        rw [made] at read
        exact read.fillSecond n
      · rename_i t x _ made
        rw [made] at read
        exact read
    · exact h

theorem Agrees.takeUpSecond {P : Nat → Prop} {s : State} (h : Agrees P s) : Agrees P (takeUpSecond s) := h.fillSecond _

end Sys2Proof.Machine
end

section
/-! The start of a move and its completion keep the agreement: the running head's claims, and what the end of a move leaves to the
second entry (R43, R47, R67, R86, R88, R118, R120). -/
namespace Sys2Proof.Machine

/-! ### The start of a move (R43, R86, R118) -/

/-- A head whose move is to start: planned from the last setpoints, no move existing, its rectangles HELD beside PARKED, and all
around it in agreement once it is RUNNING. -/
structure Starts (P : Nat → Prop) (s : State) (e : CueEntry) (rest : List CueEntry) (c : ShotContent) (p : Plan) : Prop where
  list : s.cues = e :: rest
  on : onBus s = true
  idle : s.profile.motion = .idle
  claimed : e.stage = .claimed ∨ e.stage = .groupWait
  mode : modeRight e
  planned : Planned (configOf s) e c p
  start : p.start = s.port.lastSetpoint
  later : ∀ f ∈ rest, Unread f
  own : s.claims.own = parkedClaim s :: heldLegs .leg (chosenRoute p).legs
  around : Around P { s with cues := { e with stage := .running } :: rest }

theorem Planned.run {cfg : Configuration} {e f : CueEntry} {c : ShotContent} {p : Plan} (h : Planned cfg e c p)
    (past : e.stage ≠ .routing) (copy : f.copy = e.copy) (plan : f.plan = e.plan) (running : f.stage = .running) :
    Planned cfg f c p where
  copy := copy.trans h.copy
  plan := plan.trans h.plan
  built := h.built
  range := h.range
  unrouted := fun routing => by simp [running] at routing
  routed := fun _ => h.routed past
  legs := fun claiming => by simp [running] at claiming
  common := fun n common => ⟨.inr running, (h.common n common).2⟩

theorem filter_parked_heldLegs (legs : List Leg) :
    (heldLegs .leg legs).filter (fun o => o.claim.kind != .parked) = heldLegs .leg legs := by
  rw [List.filter_eq_self]
  exact fun o mem => by simp [kind_heldLegs mem]

theorem headClaims_unpassed {s : State} {e : CueEntry} {legs : List Leg} (is : entryLegs e = legs)
    (unpassed : s.profile.leg1Passed = false) :
    headClaims s e = (if legs ≠ [] then [] else [parkedClaim s]) ++ heldLegs .leg legs := by
  rw [headClaims, is, unpassed]
  simp

section
variable {P : Nat → Prop} {s : State} {e : CueEntry} {rest : List CueEntry} {c : ShotContent} {p : Plan}
  (h : Starts P s e rest c p)
include h

theorem Starts.routing : e.stage ≠ .routing := by rcases h.claimed with stage | stage <;> simp [stage]

theorem Starts.routed : Routed (configOf s) c p := h.planned.toRouted h.around.sane h.routing

/-- The started move's head runs, its rectangles those of its route. -/
theorem Starts.runs : RunsHead (moveStarted e rest c p s) { e with stage := .running } rest c p where
  list := rfl
  on := h.on
  stage := rfl
  mode := h.mode
  planned := h.planned.run h.routing rfl rfl rfl
  second := follows_of_unread h.later
  own := by
    rw [secondClaims_unread h.later, headClaims_unpassed (e := { e with stage := .running }) (legs := (chosenRoute p).legs) (entryLegs_eq (by exact h.planned.plan)) rfl]
    show ownStarted p s.claims.own = _
    rw [ownStarted, h.own]
    by_cases none : (chosenRoute p).legs = []
    · simp [none]
      rfl
    · rw [if_neg none, if_pos none, List.filter_cons_of_neg (by simp [parkedClaim]), filter_parked_heldLegs]
      simp

/-- A move that has a length is under way from its start. -/
theorem Starts.moves (long : p.common.getD p.duration ≠ 0) : Moves (moveStarted e rest c p s) c p where
  motion := by
    show (if s.profile.hold then MotionState.held else .running) ≠ .idle
    split <;> simp
  plan := rfl
  time := by
    show 0 < 256 * p.common.getD p.duration
    omega
  setpoint := by
    rw [show (moveStarted e rest c p s).profile.time = 0 from rfl, h.routed.starts, h.start]
    rfl
  passed := fun passed => nomatch passed
  before := fun _ two => (h.routed.leg1End _ two).1

/-- All around a started move agrees, and the overlap set while the HELD rectangles stay. -/
theorem Starts.aroundStarted :
    Around (fun n => P n ∧ heldClaims (moveStarted e rest c p s) = heldClaims s) (moveStarted e rest c p s) := by
  have sent : sendingOf (moveStarted e rest c p s) = sendingOf s :=
    sendingOf_congr (busAfterReport_transmission _ _)
  have fifo : (moveStarted e rest c p s).bus.readyFifo = s.bus.readyFifo := busAfterReport_readyFifo _ _
  have around := h.around
  refine ⟨around.sane, around.numbers, around.records, ?_, ?_, around.ascending, around.known, fun n ⟨tested, held⟩ => ?_⟩
  · rw [sent, fifo]
    exact around.fifo
  · rw [fifo]
    exact around.offBus
  · rw [show (moveStarted e rest c p s).claims.overlap = s.claims.overlap from rfl]
    refine (around.exact n tested).trans ?_
    have same := fun q => peerOverlaps_congr (s := { s with cues := { e with stage := .running } :: rest })
      (t := moveStarted e rest c p s) held (fun o _ => exemptFor_congr (fun k => planFootprint_of_list rfl) o) q
    simp only [same]
    rfl

end

/-- The release of PARKED is an overlap test after it (R86). -/
theorem releaseParked_tested (e : CueEntry) (rest : List CueEntry) (c : ShotContent) (p : Plan) (s : State) :
    releaseParked (moveBegun e rest c p s) =
      if (chosenRoute p).legs = [] then moveStarted e rest c p s
      else overlapAfter (moveBegun e rest c p s) (moveStarted e rest c p s) := by
  by_cases empty : (chosenRoute p).legs = []
  · rw [if_pos empty, releaseParked_moveBegun (.inr empty)]
  · have plan : (moveBegun e rest c p s).profile.plan = some (runningPlanOf p c.livePermitted) := rfl
    have marked : onBus (moveBegun e rest c p s) = true → (moveBegun e rest c p s).bus.stateMarker = true := fun on => by
      have on : onBus s = true := on
      simp [moveBegun, on]
    have route : (runningPlanOf p c.livePermitted).route = chosenRoute p := rfl
    simp only [releaseParked, plan, route, List.isEmpty_iff, empty, if_false, changeClaims]
    rw [setOwn_marked marked, moveStarted, ownStarted, if_neg empty]
    rfl

/-- A move under way has a length. -/
theorem ListShape.notZero {s : State} (shape : ListShape s) : zeroLength s = false := by
  have of_still : Still s → zeroLength s = false := fun still => by simp [zeroLength, still.plan]
  cases shape with
  | empty _ still => exact of_still still
  | waiting _ _ _ _ still => exact of_still still
  | running e rest c p runs moves =>
    have time : s.profile.time < 256 * p.common.getD p.duration := moves.time
    have long : p.common.getD p.duration ≠ 0 := by omega
    simpa [zeroLength, moves.plan, runningPlanOf] using long

/-! ### The completion of a move (R47, R88, R120) -/

/-- The rectangles of the second entry once it is head. -/
def claimsAsHead : List CueEntry → List OwnClaim
  | [] => []
  | f :: _ => stageClaims .leg f

/-- The head's move completed, before the overlap test: the head gone, PARKED laid, the second entry's rectangles relabelled. -/
def headCompleted (e : CueEntry) (rest : List CueEntry) (s : State) : State :=
  { headEnded e rest .completed s with
    claims := { s.claims with own := parkedAt s s.port.lastSetpoint :: relabelled s } }

theorem stageClaims_relabelled (e : CueEntry) :
    ((stageClaims .nextLeg e).map fun o => { o with claim := { o.claim with kind := .leg } }) = stageClaims .leg e := by
  unfold stageClaims
  split <;> simp [pendingClaims, heldLegs, Function.comp_def]

section
variable {s : State} {e : CueEntry} {rest : List CueEntry} {c : ShotContent} {p : Plan} (runs : RunsHead s e rest c p)
include runs

theorem RunsHead.relabelled : relabelled s = claimsAsHead rest := by
  have head : (headClaims s e).filter (fun o => o.claim.kind == .nextLeg) = [] := by
    rw [List.filter_eq_nil_iff]
    intro o mem
    rcases kind_headClaims mem with ⟨rfl, _⟩ | leg
    · simp [parkedClaim]
    · simp [leg]
  have second : (secondClaims rest).filter (fun o => o.claim.kind == .nextLeg) = secondClaims rest := by
    rw [List.filter_eq_self]
    exact fun o mem => by simp [kind_secondClaims mem]
  rw [Machine.relabelled, runs.own, List.filter_append, head, second, List.nil_append]
  cases rest with
  | nil => rfl
  | cons f more => exact stageClaims_relabelled f

theorem RunsHead.waiter : waiterOf s.cues = none := by
  rw [runs.list]
  exact waiterOf_cons_other (by simp [runs.stage]) rest

theorem RunsHead.waiter_rest : waiterOf rest = none := by
  cases list : rest with
  | nil => rfl
  | cons f more =>
    have second := runs.second
    rw [list] at second
    exact waiterOf_cons_other second.2.1 more

/-- The running head leaves with its record; no readiness is live (R47, R48, R97). -/
theorem RunsHead.groupsEnded {P : Nat → Prop} {records : List GroupRecord} (h : Around P s)
    (is : records = (groupsWithout e s.groups).records) :
    RecordsRight s.control.number (groupParts rest) (waiterOf rest) records (groupsWithout e s.groups).waitTimer ∧
      FifoRight s.control.number (waiterOf rest) records s.bus.readyFifo (sendingOf s) := by
  rw [is]
  refine ⟨h.records.leave ?_ (h.otherGroups (before := []) runs.list) (.inl ⟨?_, if_neg fun h => by simp [runs.stage] at h, ?_⟩),
    h.fifo.quiet (h.fifo.liveNone runs.waiter)⟩
  · rw [runs.list]
    exact (List.sublist_cons_self e rest).filterMap _
  · rw [runs.waiter, runs.waiter_rest]
  · simp [runs.waiter]

/-- With the HELD rectangles the same before and after completion, what is held is PARKED alone. -/
theorem RunsHead.parkedOnly (held : heldClaims (headCompleted e rest s) = heldClaims s) :
    ∀ o ∈ heldClaims (headCompleted e rest s), o.claim.kind = .parked := by
  have parked : parkedAt s s.port.lastSetpoint ∈ heldClaims s := by
    rw [← held]
    exact List.mem_filter.mpr ⟨List.mem_cons_self, rfl⟩
  have legs : Machine.entryLegs e = [] := by
    have own := List.mem_of_mem_filter parked
    rw [runs.own] at own
    rcases List.mem_append.mp own with own | own
    · rcases kind_headClaims own with ⟨_, none⟩ | leg
      · exact none
      · cases leg
    · cases kind_secondClaims own
  intro o mem
  have after := List.mem_of_mem_filter mem
  rw [held] at mem
  have before := List.mem_of_mem_filter mem
  rw [runs.own, headClaims, legs] at before
  rcases List.mem_append.mp before with own | own
  · rw [show o = parkedClaim s by simpa [heldLegs] using own]
    rfl
  · have next := kind_secondClaims own
    rcases List.mem_cons.mp after with rfl | own
    · rfl
    · obtain ⟨_, _, rfl⟩ := List.mem_map.mp own
      cases next

theorem RunsHead.completed {P : Nat → Prop} (h : Around P s) (arrived : s.port.lastSetpoint = p.target) :
    Agrees (fun n => P n ∧ heldClaims (headCompleted e rest s) = heldClaims s) (headCompleted e rest s) := by
  have sent : sendingOf (headCompleted e rest s) = sendingOf s := sendingOf_congr (busAfterReport_transmission _ _)
  have fifo : (headCompleted e rest s).bus.readyFifo = s.bus.readyFifo := busAfterReport_readyFifo _ _
  obtain ⟨records, ready⟩ := runs.groupsEnded h rfl
  refine ⟨⟨h.sane, h.numbers, records, ?_, fun off => ?_, h.ascending, h.known, fun n ⟨tested, held⟩ => ?_⟩, ?_⟩
  · rw [sent, fifo]
    exact ready
  · exact absurd runs.on (by rw [show onBus s = false from off]; simp)
  · rw [show (headCompleted e rest s).claims.overlap = s.claims.overlap from rfl, h.exact n tested]
    have only := runs.parkedOnly held
    simp only [peerOverlaps_congr held fun o mem => by simp only [exemptFor, only o mem]]
    rfl
  · have own : (headCompleted e rest s).claims.own = parkedClaim (headCompleted e rest s) :: claimsAsHead rest := by
      rw [← runs.relabelled]
      rfl
    have still : Still (headCompleted e rest s) := ⟨rfl, rfl, rfl⟩
    have on : onBus (headCompleted e rest s) = true := runs.on
    have second := runs.second
    cases rest with
    | nil => exact .empty rfl still (by rw [own, if_pos on]; rfl)
    | cons f more =>
      refine .waiting f more rfl on still ?_ second.2.2 own
      rw [show (headCompleted e (f :: more) s).port.lastSetpoint = p.target from arrived]
      exact second.1

theorem RunsHead.completeMove {P : Nat → Prop} (h : Around P s) (moves : s.profile.motion ≠ .idle)
    (arrived : s.port.lastSetpoint = p.target) : Agrees P (completeMove s) := by
  rw [completeMove_tested runs.list moves]
  exact (runs.completed h arrived).overlapAfter

end

/-! ### The start as a whole (R43, R46, R67) -/

theorem Starts.startHead {P : Nat → Prop} {s : State} {e : CueEntry} {rest : List CueEntry} {c : ShotContent} {p : Plan}
    (h : Starts P s e rest c p) : Agrees P (startHead s).1 := by
  have around := h.aroundStarted
  simp only [Machine.startHead, h.list]
  rw [beginMove_eq h.list h.planned.copy h.planned.plan h.idle, releaseParked_tested]
  by_cases zero : p.common.getD p.duration = 0
  · have none := h.routed.zero zero
    have own : (moveStarted e rest c p s).claims.own = s.claims.own := if_pos none
    have held : heldClaims (moveStarted e rest c p s) = heldClaims s := congrArg (List.filter isHeld) own
    rw [if_pos none, zeroLength_moveStarted, if_pos (by simpa using zero)]
    refine h.runs.completeMove (around.weaken fun n tested => ⟨tested, held⟩) ?_ ?_
    · show (if s.profile.hold then MotionState.held else .running) ≠ .idle
      split <;> simp
    · have arrives := h.routed.arrives false
      rw [show moveEnd (runningPlanOf p false) = 0 by show 256 * p.common.getD p.duration = 0; rw [zero], h.routed.starts,
        h.start] at arrives
      exact arrives
  · have agrees : Agrees P (if (chosenRoute p).legs = [] then moveStarted e rest c p s
        else Machine.overlapAfter (moveBegun e rest c p s) (moveStarted e rest c p s)) := by
      have started : Agrees _ (moveStarted e rest c p s) := ⟨around, .running _ rest c p h.runs (h.moves zero)⟩
      split
      · rename_i none
        have own : (moveStarted e rest c p s).claims.own = s.claims.own := if_pos none
        exact started.weaken fun n tested => ⟨tested, congrArg (List.filter isHeld) own⟩
      · exact started.overlapAfter
    rw [if_neg (by simp [agrees.shape.notZero])]
    exact agrees.fillSecond _

end Sys2Proof.Machine
end

section
/-! The head's test, the filling of the head and second places, and an entry that leaves them (R39, R42 to R47, R49, R101). -/
namespace Sys2Proof.Machine

/-! ### The entry to GROUP_WAIT (R44, R101) -/

/-- The readiness of the head joins the READY FIFO (R101, R102). -/
theorem FifoRight.joins {number : Nat} {waiter : Option (Byte × Nat)} {records : List GroupRecord} {fifo : List QueuedReady}
    {sending : Option QueuedReady} (h : FifoRight number waiter records fifo sending) (quiet : liveOf fifo = [])
    {w : QueuedReady} {waiter' : Option (Byte × Nat)} (own : w.orphan = false) (waits : waiter' = some (w.group, w.duration))
    (record : ∃ r ∈ records, r.group = w.group ∧ r.state = .collecting ∧ ∀ m ∈ r.slots, m.number = number → m.ready = none) :
    FifoRight number waiter' records (fifoJoined w (if sending.isSome then 1 else 0) fifo) sending := by
  obtain ⟨sent, later, split, length, clean⟩ := h.split
  obtain ⟨later', joined, clean', live⟩ := fifoJoined_split sent own clean
  rw [split, liveOf_append, List.append_eq_nil_iff] at quiet
  have only : liveOf (sent ++ later') = [] ∨ liveOf (sent ++ later') = liveOf [w] := by
    rw [liveOf_append, quiet.1, List.nil_append]
    exact live.imp (·.trans quiet.2) fun joins => joins.trans (by rw [quiet.2, List.nil_append])
  have less : (liveOf [w]).length ≤ 1 := List.length_filter_le _ _
  rw [split, ← length, joined]
  refine h.resend split length rfl clean' ?_ fun q mem => ?_
  · rcases only with none | one
    · simp [none]
    · rw [one]
      exact less
  · rcases only with none | one
    · simp [none] at mem
    · rw [one] at mem
      obtain rfl := List.mem_singleton.mp (List.mem_of_mem_filter mem)
      exact ⟨waits, record⟩

/-- The record of an entry that gathers is COLLECTING, with no own readiness recorded while no head waits in a group. -/
theorem RecordsRight.gathering {number : Nat} {parts : List (Byte × GroupPhase)} {records : List GroupRecord} {wait : Bool}
    (h : RecordsRight number parts none records wait) {g : Byte} (mem : (g, .gathering) ∈ parts) :
    ∃ r ∈ records, r.group = g ∧ r.state = .collecting ∧ ∀ m ∈ r.slots, m.number = number → m.ready = none := by
  obtain ⟨r, memR, same, fits⟩ := h.owned _ mem
  exact ⟨r, memR, same, fits, fun m slot own => h.fresh rfl memR fits slot own⟩

/-- The head enters GROUP_WAIT: the records agree as before (R97, R101). -/
theorem RecordsRight.headWaits {number : Nat} {rest : List CueEntry} {e : CueEntry} {records : List GroupRecord} {wait : Bool}
    {g : Byte} (h : RecordsRight number (groupParts (e :: rest)) none records wait) (group : e.group = some g)
    (claimed : e.stage = .claimed) :
    RecordsRight number (groupParts ({ e with stage := .groupWait } :: rest)) (some (g, ownDuration e)) records true := by
  have parts : groupParts (e :: rest) = (g, .gathering) :: groupParts rest := by
    rw [groupParts_cons, group, claimed]
    rfl
  have parts' : groupParts ({ e with stage := .groupWait } :: rest) = (g, .waiting) :: groupParts rest := by
    rw [groupParts_cons, group]
    rfl
  have own := h.owned (g, .gathering) (by simp [parts])
  obtain ⟨r, memR, same, collecting⟩ := own
  have collecting : r.state = .collecting := collecting
  refine ⟨h.distinct, ?_, fun x mem => ?_, h.slot, fun q mem open_ m slot own n d ready => ?_, fun _ => ⟨r, memR, collecting, _, by rw [same]⟩⟩
  · have single := h.single
    rw [parts] at single
    rw [parts']
    exact single
  · rw [parts'] at mem
    rcases List.mem_cons.mp mem with rfl | mem
    · exact ⟨r, memR, same, fun ended => by rw [collecting] at ended; cases ended⟩
    · exact h.owned x (by rw [parts]; exact List.mem_cons_of_mem _ mem)
  · have none := h.fresh rfl mem open_ slot own
    simp [none] at ready

theorem Planned.waitInGroup {cfg : Configuration} {e f : CueEntry} {c : ShotContent} {p : Plan} (h : Planned cfg e c p)
    (claimed : e.stage = .claimed) (copy : f.copy = e.copy) (plan : f.plan = e.plan) (waits : f.stage = .groupWait) :
    Planned cfg f c p where
  copy := copy.trans h.copy
  plan := plan.trans h.plan
  built := h.built
  range := h.range
  unrouted := fun routing => by simp [waits] at routing
  routed := fun _ => h.routed (by simp [claimed])
  legs := fun claiming => by simp [waits] at claiming
  common := fun n common => by simp [h.free (.inr (.inr claimed))] at common

/-- The head in GROUP_WAIT. -/
def groupWaiting (e : CueEntry) : CueEntry := { e with stage := .groupWait }

theorem Agrees.testHeadGroup {P : Nat → Prop} {s : State} {e : CueEntry} {rest : List CueEntry} (h : Agrees P s)
    (list : s.cues = e :: rest) (goes : deferred e s = false) (claimed : e.stage = .claimed) (taken : e.take = true)
    (mode : e.mode = .group) : Agrees P (testHead s).1 := by
  have place := planPlace_of (before := []) h.shape list (by simp [claimed]) (by simp [claimed])
  obtain ⟨c, p, right, planned, start⟩ := (place.waits h.shape).of_past (by simp [claimed])
  obtain ⟨g, group⟩ := Option.ne_none_iff_exists'.mp (right.mp mode)
  have none : waiterOf s.cues = none := by
    rw [list]
    exact waiterOf_cons_other (by simp [claimed]) rest
  have own := place.own h.shape
  have shape := restaged_shape (f' := groupWaiting e) place h.shape
    (.planned c p nofun nofun right (fun _ => mode) (planned.waitInGroup claimed rfl rfl rfl) start) (fun some => absurd rfl some)
  have records := h.records
  rw [none, list] at records
  have named : e.group.getD 0 = g := by simp [group]
  rw [testHead_group list goes claimed taken mode, named, readySent_sendingOf]
  refine ⟨⟨h.sane, h.numbers, ?_, ?_, fun off => ?_, h.ascending, h.known, fun n tested => (h.exact n tested).trans ?_⟩, ?_⟩
  · have waiter : waiterOf (groupWaiting e :: rest) = some (g, ownDuration e) := by
      simp [waiterOf, groupWaiting, group, ownDuration]
    show RecordsRight _ (groupParts (groupWaiting e :: rest)) (waiterOf (groupWaiting e :: rest)) _ _
    rw [waiter]
    exact records.headWaits group claimed
  · have waiter : waiterOf (groupWaiting e :: rest) = some (g, ownDuration e) := by
      simp [waiterOf, groupWaiting, group, ownDuration]
    refine h.fifo.joins (w := ⟨g, e.tag, ownDuration e, (configOf s).startDelay, false, false⟩) (h.fifo.liveNone none) rfl waiter
      (records.gathering ?_)
    rw [groupParts_cons, group, claimed]
    exact List.mem_cons_self
  · exact absurd (place.on h.shape) (by rw [show onBus s = false from off]; simp)
  · have same := fun q => peerOverlaps_congr (s := s) (t := { s with cues := groupWaiting e :: rest }) rfl
      (fun o _ => exemptFor_congr (fun k => by
        rw [planFootprint, planFootprint, list]
        cases k <;> rfl) o) q
    exact exists_congr fun q => by rw [← same q]; rfl
  · refine shape.same rfl ?_ rfl rfl rfl rfl
    show s.claims.own = (s.claims.own.filter fun o => !ownedAt 0 o) ++ stageClaims (kindAt 0) (groupWaiting e)
    have same : stageClaims (kindAt 0) (groupWaiting e) = stageClaims (kindAt 0) e := by
      simp only [stageClaims, claimed, groupWaiting]
      rfl
    rw [same]
    exact own.symm

/-! ### The head's test (R43 to R45) -/

/-- A list with the same groups and plans leaves all around it in agreement. -/
theorem Around.withList {P : Nat → Prop} {s : State} {l : List CueEntry} (h : Around P s)
    (parts : groupParts l = groupParts s.cues) (waiter : waiterOf l = waiterOf s.cues)
    (plans : ∀ k, planFootprint k { s with cues := l } = planFootprint k s) : Around P { s with cues := l } where
  sane := h.sane
  numbers := h.numbers
  records := by
    show RecordsRight _ (groupParts l) (waiterOf l) _ _
    rw [parts, waiter]
    exact h.records
  fifo := by
    show FifoRight _ (waiterOf l) _ _ _
    rw [waiter]
    exact h.fifo
  offBus := h.offBus
  ascending := h.ascending
  known := h.known
  exact := fun n tested => (h.exact n tested).trans (exists_congr fun q => by
    rw [← peerOverlaps_congr (s := s) (t := { s with cues := l }) rfl (fun o _ => exemptFor_congr plans o) q])

theorem planFootprint_head {s : State} {e f : CueEntry} {rest : List CueEntry} (list : s.cues = e :: rest)
    (plan : f.plan = e.plan) (k : Nat) : planFootprint k { s with cues := f :: rest } = planFootprint k s := by
  rw [planFootprint, planFootprint, list]
  cases k with
  | zero => exact congrArg (Option.map Plan.startFootprint) plan
  | succ k => rfl

/-- The head that waits, with what goes with it. -/
theorem ListShape.head {s : State} {e : CueEntry} {rest : List CueEntry} (shape : ListShape s) (list : s.cues = e :: rest)
    (past : e.stage ≠ .queued) (still : e.stage ≠ .running) :
    onBus s = true ∧ Still s ∧ (∀ f ∈ rest, Unread f) ∧ s.claims.own = parkedClaim s :: stageClaims .leg e ∧
      ∃ c p, modeRight e ∧ Planned (configOf s) e c p ∧ p.start = s.port.lastSetpoint := by
  have place := planPlace_of (before := []) shape list past still
  rcases place.shape_cases shape with ⟨_, on, rests, waits, later, own⟩ | ⟨_, _, _, absurd, _⟩
  · exact ⟨on, rests, later, own, waits.of_past past⟩
  · cases absurd

theorem Agrees.startsHead {P : Nat → Prop} {s : State} {e : CueEntry} {rest : List CueEntry} (h : Agrees P s)
    (list : s.cues = e :: rest) (claimed : e.stage = .claimed) (mode : e.mode ≠ .group) :
    ∃ c p, Starts P s e rest c p := by
  obtain ⟨on, still, later, own, c, p, right, planned, start⟩ := h.shape.head list (by simp [claimed]) (by simp [claimed])
  have none : e.group = none := by
    by_contra some
    exact mode (right.mpr some)
  refine ⟨c, p, list, on, still.motion, .inl claimed, right, planned, start, later, ?_, h.withList ?_ ?_ (planFootprint_head list rfl)⟩
  · rw [own, ← entryLegs_eq planned.plan]
    simp only [stageClaims, claimed]
  · rw [list, groupParts_cons, groupParts_cons, none]
    rfl
  · rw [list, waiterOf_cons_other (e := e) (by simp [claimed]), waiterOf_cons_other (by simp)]

@[simp] theorem floorView_reportDeferred (e : CueEntry) (s : State) : floorView (reportDeferred e s) = floorView s := by
  unfold reportDeferred
  split
  · rfl
  · rw [floorView_reportCue, floorView_modifyCue]
    exact fun _ => rfl

theorem Agrees.testHead {P : Nat → Prop} {s : State} (h : Agrees P s) : Agrees P (testHead s).1 := by
  cases list : s.cues with
  | nil =>
    rw [testHead_nil list]
    exact h
  | cons e rest =>
    by_cases defers : deferred e s = true
    · simp only [Machine.testHead, list, defers, if_true]
      exact h.congr (floorView_reportDeferred e s)
    have goes := Bool.eq_false_iff.mpr defers
    by_cases taken : e.stage = .claimed ∧ e.take = true
    · by_cases mode : e.mode = .group
      · exact h.testHeadGroup list goes taken.1 taken.2 mode
      · by_cases may : s.control.station = .active ∧ s.profile.motion = .idle ∧ s.control.restartPending = false
        · obtain ⟨c, p, starts⟩ := h.startsHead list taken.1 mode
          rw [testHead_starts list goes taken.1 taken.2 mode may.1 may.2.1 may.2.2]
          exact starts.startHead
        · rw [testHead_held list goes mode may]
          exact h
    · rw [testHead_waits list goes ((not_and_or.mp taken).imp_right Bool.eq_false_iff.mpr)]
      exact h

/-! ### The places are filled (R42, R46, R47) -/

theorem planPlace_head {s : State} {e : CueEntry} {rest : List CueEntry} (list : s.cues = e :: rest)
    (queued : e.stage = .queued) : PlanPlace [] e rest s := by
  refine ⟨list, .inl ⟨rfl, ?_⟩⟩
  rw [← Bool.not_eq_true, headRunning_cons list]
  simp [queued]

theorem Agrees.advance {P : Nat → Prop} : ∀ (n : Nat) {s : State}, Agrees P s → Agrees P (advance n s)
  | 0, _, h => h
  | n + 1, s, h => by
    have tested : ∀ {u : State}, Agrees P u → Agrees P (match Machine.testHead u with
        | (v, true) => Machine.advance n v
        | (v, false) => v) := fun {u} hu => by
      have test := hu.testHead
      cases made : Machine.testHead u with | mk v ended =>
      rw [made] at test
      cases ended with
      | false => exact test
      | true => exact test.advance n
    unfold Machine.advance
    split
    · exact h
    · rename_i e rest list
      split
      · rename_i queued
        split
        · have read := h.planAt (planPlace_head list queued) queued
          rw [List.length_nil] at read
          cases made : Machine.planAt 0 s with | mk t result =>
          rw [made] at read
          cases result with
          | left => exact read.advance n
          | stays => exact read
          | staged => exact tested read
        · exact h
      · exact tested h

theorem Agrees.takeUpHead {P : Nat → Prop} {s : State} (h : Agrees P s) : Agrees P (takeUpHead s) := h.advance _

theorem Agrees.retestHead {P : Nat → Prop} {s : State} (h : Agrees P s) : Agrees P (retestHead s) := by
  have test := h.testHead
  unfold Machine.retestHead
  cases made : Machine.testHead s with | mk t ended =>
  rw [made] at test
  cases ended with
  | false => exact test
  | true => exact test.takeUpHead

theorem Agrees.refill {P : Nat → Prop} {s : State} (k : Nat) (h : Agrees P s) : Agrees P (refill k s) := by
  match k with
  | 0 => exact h.takeUpHead
  | 1 => exact h.takeUpSecond
  | _ + 2 => exact h

/-- An entry whose move is not running leaves and its place is filled (R39, R49). -/
theorem Agrees.leaveAt {P : Nat → Prop} {s : State} {k : Nat} {e : CueEntry} (o : CueOutcome) (withdraw : Bool) (h : Agrees P s)
    (found : s.cues[k]? = some e) (still : e.stage ≠ .running)
    (due : withdraw = true ∨ e.stage ≠ .groupWait ∨ liveOf s.bus.readyFifo = []) : Agrees P (leaveAt k o withdraw s) := by
  obtain ⟨before, after, list, rfl⟩ := exists_place found
  rw [Machine.leaveAt, removeAt_eq o withdraw list]
  exact (h.without o withdraw list still due).overlapAfter.refill _

end Sys2Proof.Machine
end

section
/-! The end of a stopped move, the end of leg 1 and the servo period keep the agreement (R48, R87, R89, R114, R117, R119, R125,
R183). -/
namespace Sys2Proof.Machine

/-! ### A move under way -/

/-- A move under way is a running head's. -/
theorem ListShape.runs {s : State} (shape : ListShape s) (moves : s.profile.motion ≠ .idle) :
    ∃ e rest c p, RunsHead s e rest c p ∧ Moves s c p := by
  cases shape with
  | empty _ still => exact absurd still.motion moves
  | waiting _ _ _ _ still => exact absurd still.motion moves
  | running e rest c p runs moves => exact ⟨e, rest, c, p, runs, moves⟩

/-- What a setting of the overlap set and a raise both keep, an overlap test keeps. -/
theorem overlapAfter_keeps {Q : State → Prop} (noted : ∀ {l u}, Q u → Q (setOverlap l u))
    (raised : ∀ {c n u}, Q u → Q (raise c n u)) (b : State) {s : State} (h : Q s) : Q (overlapAfter b s) := by
  have one : ∀ {n u}, Q u → Q (overlapTestBy raise n u) := fun {n u} hu => by
    unfold overlapTestBy
    split
    · exact hu
    · split
      · split
        · exact hu
        · exact raised (noted hu)
      · exact noted hu
  have fold : ∀ (l : List Nat) {u : State}, Q u → Q (l.foldl (fun t n => overlapTestBy raise n t) u) := by
    intro l
    induction l with
    | nil => exact fun hu => hu
    | cons n l ih => exact fun hu => ih (one hu)
  unfold overlapAfter overlapAfterBy
  split
  · exact h
  · exact fold _ h

theorem raise_moves {c : FaultClass} {n : FaultName} {s : State} (moves : s.profile.motion ≠ .idle) :
    (raise c n s).profile.motion ≠ .idle := by
  by_cases severe : s.control.station = .active ∧ isStop s c = true
  · rw [(raise_stopped n severe.1 severe.2).profile]
    simp [moves]
  · rw [raise_flagged n ((not_and_or.mp severe).imp_right Bool.eq_false_iff.mpr)]
    exact moves

theorem overlapAfter_moves (b : State) {s : State} (moves : s.profile.motion ≠ .idle) :
    (overlapAfter b s).profile.motion ≠ .idle :=
  overlapAfter_keeps (Q := fun u => u.profile.motion ≠ .idle) (fun h => h) raise_moves b moves

/-! ### The end of a stopped move (R48, R89, R125) -/

/-- The list once the pre-plan of its first entry is discarded. -/
def listDiscarded : List CueEntry → List CueEntry
  | [] => []
  | f :: more => discardedEntry f :: more

theorem Waits.discarded {cfg : Configuration} {starts : PerAxis Position} {f : CueEntry} (h : Waits cfg starts f) :
    Unread (discardedEntry f) := by
  cases h with
  | unread unread =>
    rw [discardedEntry, if_pos unread.queued]
    exact unread
  | planned c p past still mode =>
    rw [discardedEntry, if_neg past]
    exact ⟨rfl, rfl, rfl, mode⟩

theorem discardedEntry_group (f : CueEntry) : (discardedEntry f).group = f.group := by
  unfold discardedEntry
  split <;> rfl

/-- The stopped move's head gone, the pre-plan behind it discarded, PARKED alone claimed. -/
def headStopped (e : CueEntry) (rest : List CueEntry) (o : CueOutcome) (s : State) : State :=
  { headEnded e rest o s with
    cues := listDiscarded rest
    claims := { s.claims with own := [parkedClaim s] } }

section
variable {s : State} {e : CueEntry} {rest : List CueEntry} {c : ShotContent} {p : Plan} (runs : RunsHead s e rest c p)
include runs

theorem RunsHead.discarded : (∀ f ∈ listDiscarded rest, Unread f) ∧ groupParts (listDiscarded rest) = groupParts rest := by
  have second := runs.second
  cases list : rest with
  | nil => exact ⟨fun f mem => absurd mem List.not_mem_nil, rfl⟩
  | cons f more =>
    rw [list] at second
    obtain ⟨waits, notGroup, later⟩ := second
    refine ⟨List.forall_mem_cons.mpr ⟨waits.discarded, later⟩, ?_⟩
    refine groupParts_replace (before := []) (discardedEntry_group f) ?_
    rw [discardedEntry_stage]
    have still := waits.still
    cases stage : f.stage <;> simp_all [groupPhase]

theorem RunsHead.stopped {P : Nat → Prop} (h : Around P s) (o : CueOutcome) :
    Agrees (fun n => P n ∧ heldClaims (headStopped e rest o s) = heldClaims s) (headStopped e rest o s) := by
  have sent : sendingOf (headStopped e rest o s) = sendingOf s := sendingOf_congr (busAfterReport_transmission _ _)
  have fifo : (headStopped e rest o s).bus.readyFifo = s.bus.readyFifo := busAfterReport_readyFifo _ _
  obtain ⟨records, ready⟩ := runs.groupsEnded h rfl
  obtain ⟨unread, parts⟩ := runs.discarded
  have waiter : waiterOf (listDiscarded rest) = waiterOf rest := by rw [waiterOf_unread unread, runs.waiter_rest]
  refine ⟨⟨h.sane, h.numbers, ?_, ?_, fun off => ?_, h.ascending, h.known, fun n ⟨tested, held⟩ => ?_⟩,
    shape_of_unread runs.on ⟨rfl, rfl, rfl⟩ unread rfl⟩
  · show RecordsRight _ (groupParts (listDiscarded rest)) (waiterOf (listDiscarded rest)) _ _
    rw [parts, waiter]
    exact records
  · rw [sent, fifo]
    show FifoRight _ (waiterOf (listDiscarded rest)) _ _ _
    rw [waiter]
    exact ready
  · exact absurd runs.on (by rw [show onBus s = false from off]; simp)
  · rw [show (headStopped e rest o s).claims.overlap = s.claims.overlap from rfl, h.exact n tested]
    have only : ∀ q ∈ heldClaims (headStopped e rest o s), q = parkedClaim s := fun q mem =>
      List.mem_singleton.mp (List.mem_of_mem_filter mem)
    simp only [peerOverlaps_congr held fun q mem => by rw [only q mem]; rfl]
    rfl

theorem RunsHead.endStoppedMove {P : Nat → Prop} (h : Around P s) (moves : s.profile.motion ≠ .idle) :
    Agrees P (endStoppedMove s) := by
  refine Agrees.overlapAfter ?_
  rw [endHead_endMove _ runs.list moves]
  have view : floorView (setOwn [parkedClaim (discardPrePlan (headEnded e rest (headEnding s) s))]
      (discardPrePlan (headEnded e rest (headEnding s) s))) = floorView (headStopped e rest (headEnding s) s) := by
    rw [floorView_setOwn]
    cases rest with
    | nil => rw [discardPrePlan_nil rfl]; rfl
    | cons f more => rw [discardPrePlan_cons rfl]; rfl
  rw [view_heldClaims view]
  exact (runs.stopped h _).congr view

end

/-! ### Stop completion (R125, R169, R182, R183) -/

/-- A RESTART in effect leaves nothing that has to agree. -/
theorem Agrees.restartEffect {P Q : Nat → Prop} {s : State} (h : Agrees P s) : Agrees Q (restartEffect s) where
  sane := h.sane
  numbers := List.Pairwise.nil
  records := ⟨List.nodup_nil, List.nodup_nil, nofun, nofun, nofun, nofun⟩
  fifo := ⟨Nat.zero_le _, nofun, nofun, nofun⟩
  offBus := fun _ => ⟨rfl, rfl⟩
  ascending := List.Pairwise.nil
  known := nofun
  exact := fun _ _ => ⟨nofun, nofun⟩
  shape := .empty rfl ⟨rfl, rfl, rfl⟩ rfl

theorem Agrees.faultStopCompletion {P : Nat → Prop} {s : State} (h : Agrees P s) (on : onBus s = true) :
    Agrees P (faultStopCompletion s) := by
  unfold Machine.faultStopCompletion
  split
  · refine Agrees.congr ?_ h
    rfl
  · exact h.congr (floorView_returnToActive on)

theorem Agrees.stopCompletion {P : Nat → Prop} {s : State} (h : Agrees P s) (moves : s.profile.motion ≠ .idle) :
    Agrees P (stopCompletion s) := by
  obtain ⟨e, rest, c, p, runs, _⟩ := h.shape.runs moves
  have taken := (runs.endStoppedMove h.toAround moves).takeUpHead
  have on : onBus (Machine.takeUpHead (endStoppedMove s)) = true := by
    rw [does_onBus ((does_endStoppedMove s).trans (does_takeUpHead _))]
    exact runs.on
  have ended : Agrees P (if s.control.station = .faultStop then Machine.faultStopCompletion (Machine.takeUpHead (endStoppedMove s))
      else Machine.takeUpHead (endStoppedMove s)) := by
    split
    · exact taken.faultStopCompletion on
    · exact taken
  unfold Machine.stopCompletion
  dsimp only
  split
  · exact ended.restartEffect
  · exact ended

end Sys2Proof.Machine
end

section
/-! The servo period keeps the agreement: profile time, the end of leg 1, the two ways in which a move ends, the exchange that
closes (R5, R7, R8, R87, R114, R117, R119, R120, R125). -/
namespace Sys2Proof.Machine

/-! ### Profile time (R117) -/

section
variable {p : RunningPlan} {s : State}

/-- Where profile time stands after a period: at the end of leg 1, or short of it and of the move's end, or at that end. -/
theorem nextTime_cases (leg : twoLegs p = true → leg1End p < moveEnd p) (within : s.profile.time < moveEnd p) :
    (reachesLeg1End p s = true ∧ twoLegs p = true ∧ nextTime p s = leg1End p) ∨
      (reachesLeg1End p s = false ∧ s.profile.time ≤ nextTime p s ∧
        (s.profile.leg1Passed = false → twoLegs p = true → nextTime p s < leg1End p) ∧
        (nextTime p s < moveEnd p ∨ (stopping s = false ∧ nextTime p s = moveEnd p))) := by
  by_cases opens : twoLegs p = true ∧ s.profile.leg1Passed = false
  · obtain ⟨two, unpassed⟩ := opens
    have inside := leg two
    by_cases beyond : leg1End p < s.profile.time + nextRate s
    · have at_ : nextTime p s = leg1End p := by simp [nextTime, advanceTime, two, unpassed, beyond]
      exact .inl ⟨by simp [reachesLeg1End, two, unpassed, at_], two, at_⟩
    · have at_ : nextTime p s = s.profile.time + nextRate s := by
        rw [nextTime, advanceTime, if_neg (by simp [beyond]), if_neg (by omega)]
      by_cases meets : leg1End p ≤ s.profile.time + nextRate s
      · exact .inl ⟨by simp [reachesLeg1End, two, unpassed, at_, meets], two, by omega⟩
      · exact .inr ⟨by simp [reachesLeg1End, at_, meets], by omega, fun _ _ => by omega, .inl (by omega)⟩
  · have closed : (twoLegs p && !s.profile.leg1Passed) = false := by
      rw [Bool.eq_false_iff]
      simpa using opens
    refine .inr ⟨by simp [reachesLeg1End, closed], ?_⟩
    have at_ : nextTime p s = if moveEnd p ≤ s.profile.time + nextRate s then
        (if stopping s then moveEnd p - 1 else moveEnd p) else s.profile.time + nextRate s := by
      rw [nextTime, advanceTime, closed, Bool.false_and, if_neg (by simp)]
    rw [at_]
    refine ⟨?_, fun unpassed two => absurd ⟨two, unpassed⟩ opens, ?_⟩
    · split
      · split <;> omega
      · omega
    · split
      · cases stops : stopping s with
        | false => exact .inr ⟨rfl, rfl⟩
        | true => exact .inl (by rw [if_pos rfl]; omega)
      · exact .inl (by omega)

end

/-! ### A period of a running head (R114) -/

theorem Moves.same_plan {s : State} {c : ShotContent} {p : Plan} {run : RunningPlan} (moves : Moves s c p)
    (plan : s.profile.plan = some run) : run = runningPlanOf p c.livePermitted :=
  Option.some.inj (plan.symm.trans moves.plan)

section
variable {P : Nat → Prop} {s : State} {e : CueEntry} {rest : List CueEntry} {c : ShotContent} {p : Plan}
  (h : Around P s) (runs : RunsHead s e rest c p) (moves : Moves s c p)

theorem RunsHead.routed (runs : RunsHead s e rest c p) (sane : ∀ a, 1 ≤ ((configOf s).axes.get a).speed) :
    Routed (configOf s) c p := runs.planned.toRouted sane (by simp [runs.stage])

include h in
/-- A period changes nothing of what is around the move. -/
theorem Around.runPeriod (run : RunningPlan) : Around P (runPeriod run s) := by
  obtain ⟨marks, ran⟩ := runPeriod_eq run s
  rw [ran]
  have marked : Around P { s with bus := busMarked marks s.bus } := h.congr (floorView_bus s rfl rfl)
  exact { marked with }

include h runs moves

/-- PARKED stays where it is while a move without legs runs. -/
theorem RunsHead.parked_of_noLegs (none : (chosenRoute p).legs = []) {t : Nat}
    (within : t ≤ moveEnd (runningPlanOf p c.livePermitted)) :
    floorPoint (setpointsAt (runningPlanOf p c.livePermitted) t) = floorPoint s.port.lastSetpoint := by
  have at_ : ∀ {u : Nat}, u ≤ moveEnd (runningPlanOf p c.livePermitted) →
      floorPoint (setpointsAt (runningPlanOf p c.livePermitted) u) = floorPoint p.start := fun within => by
    rcases (runs.routed h.sane).floor c.livePermitted within with ⟨_, at_⟩ | ⟨l, one, _⟩ | ⟨l, k, two, _⟩
    · exact at_
    · simp [none] at one
    · simp [none] at two
  rw [moves.setpoint, at_ within, at_ moves.time.le]

theorem RunsHead.runPeriod (within : nextTime (runningPlanOf p c.livePermitted) s ≤ moveEnd (runningPlanOf p c.livePermitted)) :
    RunsHead (runPeriod (runningPlanOf p c.livePermitted) s) e rest c p := by
  have parked := runs.parked_of_noLegs h moves (t := nextTime (runningPlanOf p c.livePermitted) s)
  have legs := runs.entryLegs
  obtain ⟨marks, ran⟩ := runPeriod_eq (runningPlanOf p c.livePermitted) s
  rw [ran]
  refine ⟨runs.list, runs.on, runs.stage, runs.mode, runs.planned, runs.second, runs.own.trans ?_⟩
  congr 1
  rw [headClaims, headClaims]
  congr 1
  by_cases none : Machine.entryLegs e = []
  · rw [if_neg (not_not.mpr none), if_neg (not_not.mpr none)]
    have same := parked (legs ▸ none) within
    simp only [parkedClaim, same]
    rfl
  · rw [if_pos none, if_pos none]

end

/-- The rectangles left after leg 1 (R87). -/
theorem headClaims_pastLeg1 {s t : State} {e : CueEntry} {rest : List CueEntry} {l k : Leg} (legs : entryLegs e = [l, k])
    (unpassed : s.profile.leg1Passed = false) (passed : t.profile.leg1Passed = true) :
    (headClaims s e ++ secondClaims rest).filter (fun o => !(o.claim.kind == .leg && o.leg == 1)) =
      headClaims t e ++ secondClaims rest := by
  rw [List.filter_append]
  congr 1
  · simp [headClaims, legs, unpassed, passed, heldLegs]
  · rw [List.filter_eq_self]
    exact fun o mem => by simp [kind_secondClaims mem]

/-- The end of leg 1: its mark is set, its rectangle released, every peer tested after it (R87, R119). -/
theorem RunsHead.endLeg1 {P : Nat → Prop} {s : State} {e : CueEntry} {rest : List CueEntry} {c : ShotContent} {p : Plan}
    (runs : RunsHead s e rest c p) (h : Around P s) (unpassed : s.profile.leg1Passed = false)
    (motion : s.profile.motion ≠ .idle) (plan : s.profile.plan = some (runningPlanOf p c.livePermitted))
    (two : twoLegs (runningPlanOf p c.livePermitted) = true) (at_ : s.profile.time = leg1End (runningPlanOf p c.livePermitted))
    (setpoint : s.port.lastSetpoint = setpointsAt (runningPlanOf p c.livePermitted) s.profile.time) :
    Agrees P (endLeg1 s) ∧ (endLeg1 s).profile.motion ≠ .idle := by
  obtain ⟨l, k, legs⟩ : ∃ l k, Machine.entryLegs e = [l, k] := by
    rw [runs.entryLegs, ← List.length_eq_two]
    simpa [twoLegs, runningPlanOf] using two
  have inside := ((runs.routed h.sane).leg1End c.livePermitted two).2
  have own := headClaims_pastLeg1 (rest := rest) (s := s) legs unpassed
    (t := restartBlanking { s with profile := { s.profile with leg1Passed := true } }) rfl
  rw [← runs.own] at own
  unfold Machine.endLeg1 changeClaims
  refine ⟨Agrees.overlapAfter ?_, overlapAfter_moves _ ?_⟩
  · refine Agrees.congr (floorView_setOwn _ _) ⟨⟨h.sane, h.numbers, h.records, h.fifo, h.offBus, h.ascending, h.known,
      fun n ⟨tested, held⟩ => ?_⟩, .running e rest c p ⟨runs.list, runs.on, runs.stage, runs.mode, runs.planned, runs.second, own⟩
        ⟨motion, plan, by rw [← at_] at inside; exact inside, setpoint, fun _ => ⟨two, at_.ge⟩, nofun⟩⟩
    rw [setOwn_eq] at held
    refine (h.exact n tested).trans (exists_congr fun q => ?_)
    rw [← peerOverlaps_congr (s := s) held (fun o _ => exemptFor_congr (fun k => planFootprint_of_list rfl) o) q]
    rfl
  · rw [setOwn_eq]
    exact motion

/-! ### The period of a move (R114, R119, R120, R125) -/

theorem Agrees.movePeriod {P : Nat → Prop} {s : State} {run : RunningPlan} (h : Agrees P s) (moving : s.profile.motion ≠ .idle)
    (plan : s.profile.plan = some run) : Agrees P (movePeriod run s) := by
  obtain ⟨e, rest, c, p, runs, moves⟩ := h.shape.runs moving
  obtain rfl := moves.same_plan plan
  have routed := runs.routed h.sane
  have around := h.toAround.runPeriod (runningPlanOf p c.livePermitted)
  have runs' := runs.runPeriod h.toAround moves
  obtain ⟨marks, ran⟩ := runPeriod_eq (runningPlanOf p c.livePermitted) s
  have motion : (runPeriod (runningPlanOf p c.livePermitted) s).profile.motion ≠ .idle := by
    rw [ran]
    show (if _ then MotionState.held else s.profile.motion) ≠ .idle
    split
    · decide
    · exact moving
  have time : (runPeriod (runningPlanOf p c.livePermitted) s).profile.time = nextTime (runningPlanOf p c.livePermitted) s := by
    rw [ran]
  have setpoint : (runPeriod (runningPlanOf p c.livePermitted) s).port.lastSetpoint =
      setpointsAt (runningPlanOf p c.livePermitted) (nextTime (runningPlanOf p c.livePermitted) s) := by
    rw [ran]
  have same : (runPeriod (runningPlanOf p c.livePermitted) s).profile.leg1Passed = s.profile.leg1Passed ∧
      (runPeriod (runningPlanOf p c.livePermitted) s).profile.plan = s.profile.plan := by
    rw [ran]
    exact ⟨rfl, rfl⟩
  have goes : ∀ {u : State}, Agrees P u → u.profile.motion ≠ .idle →
      nextTime (runningPlanOf p c.livePermitted) s < moveEnd (runningPlanOf p c.livePermitted) →
      Agrees P (if stopping s then (if nextRate s = 0 then Machine.stopCompletion u else u)
        else if moveEnd (runningPlanOf p c.livePermitted) ≤ nextTime (runningPlanOf p c.livePermitted) s then
          Machine.takeUpHead (completeMove u)
        else u) := fun hu moving within => by
    rw [if_neg (Nat.not_le.mpr within)]
    split
    · split
      · exact hu.stopCompletion moving
      · exact hu
    · exact hu
  unfold Machine.movePeriod
  dsimp only
  rcases nextTime_cases (s := s) (fun two => (routed.leg1End c.livePermitted two).2) moves.time with
    ⟨reaches, two, at_⟩ | ⟨short, later, unpassed, ends⟩
  · have inside := (routed.leg1End c.livePermitted two).2
    have opens : s.profile.leg1Passed = false := by
      simp only [reachesLeg1End, Bool.and_eq_true, Bool.not_eq_true'] at reaches
      exact reaches.1.2
    obtain ⟨passed, moving'⟩ := (runs' (by rw [at_]; exact inside.le)).endLeg1 around (same.1.trans opens) motion
      (same.2.trans moves.plan) two (time.trans at_) (by rw [setpoint, time])
    rw [if_pos reaches]
    exact goes passed moving' (at_ ▸ inside)
  · rw [short, if_neg Bool.false_ne_true]
    rcases ends with within | ⟨goesOn, at_⟩
    · refine goes ⟨around, .running e rest c p (runs' within.le) ⟨motion, same.2.trans moves.plan, by rw [time]; exact within,
        by rw [setpoint, time], fun passed => ?_, fun opens two => ?_⟩⟩ motion within
      · obtain ⟨two, past⟩ := moves.passed (same.1 ▸ passed)
        exact ⟨two, by rw [time]; exact past.trans later⟩
      · rw [time]
        exact unpassed (same.1 ▸ opens) two
    · rw [goesOn, if_neg Bool.false_ne_true, if_pos at_.ge]
      refine ((runs' at_.le).completeMove around motion ?_).takeUpHead
      rw [setpoint, at_, routed.arrives]

/-! ### The exchange (R5, R7, R8) -/

theorem floorView_port (s : State) {port : AxisPort} (same : port.lastSetpoint = s.port.lastSetpoint) :
    floorView { s with port := port } = floorView s := by
  simp only [floorView, same]
  rfl

theorem Agrees.withPort {P : Nat → Prop} {s : State} {port : AxisPort} (same : port.lastSetpoint = s.port.lastSetpoint)
    (h : Agrees P s) : Agrees P { s with port := port } := h.congr (floorView_port s same)

theorem Agrees.missedReply {P : Nat → Prop} {s : State} (x : Exchange) (a : Axis) (h : Agrees P s) :
    Agrees P (missedReply x s a) := by
  unfold Machine.missedReply
  split
  · exact h
  · exact Agrees.raise _ _ (h.withPort rfl)

theorem Agrees.foldl {α : Type} {P : Nat → Prop} {f : State → α → State} (one : ∀ {u a}, Agrees P u → Agrees P (f u a)) :
    ∀ (l : List α) {s : State}, Agrees P s → Agrees P (l.foldl f s)
  | [], _, h => h
  | _ :: l, _, h => (one h).foldl one l

theorem Agrees.closeExchange {P : Nat → Prop} {s : State} (h : Agrees P s) : Agrees P (closeExchange s) := by
  unfold Machine.closeExchange
  split
  · exact h
  · exact Agrees.foldl (fun hu => hu.missedReply _ _) _ (h.withPort rfl)

theorem Agrees.servoPeriod {P : Nat → Prop} {s : State} (h : Agrees P s) : Agrees P (servoPeriod s) := by
  have counted : Agrees P (countBlanking s) := h.withPort rfl
  have worked : Agrees P (profileWork s) := by
    by_cases idle : s.profile.motion = .idle
    · rw [profileWork_idle idle]
      exact counted
    · obtain ⟨e, rest, c, p, _, moves⟩ := h.shape.runs idle
      rw [profileWork_moving moves.plan idle]
      exact counted.movePeriod idle moves.plan
  have eq : Machine.servoPeriod s = openExchange s.port.lastSetpoint (Machine.closeExchange (profileWork s)) := rfl
  rw [eq]
  exact worked.closeExchange.withPort rfl

end Sys2Proof.Machine
end

section
/-! Group moves keep the agreement: readiness recorded, the start event, withdrawals, the group timers (R64, R97, R99 to R108). -/
namespace Sys2Proof.Machine

/-! ### A record changes (R97) -/

/-- The record of one group changed. -/
def changed (g : Byte) (f : GroupRecord → GroupRecord) (r : GroupRecord) : GroupRecord := if r.group = g then f r else r

theorem changed_group {g : Byte} {f : GroupRecord → GroupRecord} (group : ∀ r, (f r).group = r.group) (r : GroupRecord) :
    (changed g f r).group = r.group := by
  unfold changed
  split
  · exact group r
  · rfl

theorem changed_numbers {g : Byte} {f : GroupRecord → GroupRecord}
    (numbers : ∀ r, (f r).slots.map Slot.number = r.slots.map Slot.number) (r : GroupRecord) :
    (changed g f r).slots.map Slot.number = r.slots.map Slot.number := by
  unfold changed
  split
  · exact numbers r
  · rfl

theorem modifyRecord_eq (g : Byte) (f : GroupRecord → GroupRecord) (s : State) :
    modifyRecord g f s = { s with groups := { s.groups with records := s.groups.records.map (changed g f) } } := rfl

/-- Groups and READY FIFO changed, with what both still agree on. -/
theorem Agrees.withGroups {P : Nat → Prop} {s : State} {groups : Groups} (h : Agrees P s) (on : onBus s = true)
    (records : RecordsRight s.control.number (groupParts s.cues) (waiterOf s.cues) groups.records groups.waitTimer)
    (fifo : FifoRight s.control.number (waiterOf s.cues) groups.records s.bus.readyFifo (sendingOf s)) :
    Agrees P { s with groups := groups } where
  sane := h.sane
  numbers := h.numbers
  records := records
  fifo := fifo
  offBus := fun off => absurd on (by rw [show onBus s = false from off]; simp)
  ascending := h.ascending
  known := h.known
  exact := h.exact
  shape := h.shape.same rfl rfl rfl rfl rfl rfl

theorem Agrees.onBus_of_record {P : Nat → Prop} {s : State} (h : Agrees P s) {r : GroupRecord} (mem : r ∈ s.groups.records) :
    onBus s = true := by
  by_contra off
  simp [(h.offBus (by simpa using off)).1] at mem

theorem groupRecord_mem {g : Byte} {r : GroupRecord} {s : State} (found : groupRecord g s = some r) : r ∈ s.groups.records :=
  List.mem_of_find?_eq_some found

/-! ### Readiness recorded (R100, R103) -/

theorem recordSlot_numbers (number n g : Nat) (r : GroupRecord) :
    (recordSlot number n g r).slots.map Slot.number = r.slots.map Slot.number := by
  rw [recordSlot, List.map_map]
  refine List.map_congr_left fun m _ => ?_
  dsimp only [Function.comp]
  split <;> rfl

/-- The slots of another member are what they were. -/
theorem mem_recordSlot_other {number n g own : Nat} {r : GroupRecord} (other : own ≠ number) {m : Slot}
    (mem : m ∈ (recordSlot number n g r).slots) (number' : m.number = own) : m ∈ r.slots := by
  obtain ⟨q, was, is⟩ := List.mem_map.mp mem
  by_cases same : q.number = number
  · rw [if_pos same] at is
    exact absurd (number'.symm.trans (by rw [← is]; exact same)) other
  · rw [if_neg same] at is
    exact is ▸ was

/-- Another member's readiness is recorded. -/
theorem Agrees.recordOther {P : Nat → Prop} {s : State} {number : Nat} (h : Agrees P s) (on : onBus s = true)
    (other : s.control.number ≠ number) (g : Byte) (n d : Nat) : Agrees P (modifyRecord g (recordSlot number n d) s) := by
  rw [modifyRecord_eq]
  have state : ∀ r, (changed g (recordSlot number n d) r).state = r.state := fun r => by
    unfold changed
    split <;> rfl
  have slots : ∀ {r : GroupRecord} {m : Slot}, m ∈ (changed g (recordSlot number n d) r).slots → m.number = s.control.number →
      m ∈ r.slots := fun {r m} mem own => by
    unfold changed at mem
    split at mem
    · exact mem_recordSlot_other other mem own
    · exact mem
  have group := changed_group (g := g) (f := recordSlot number n d) fun _ => rfl
  refine h.withGroups on (h.records.change group (changed_numbers fun r => recordSlot_numbers number n d r) h.records.single
    (fun x mem => ?_) (fun r mem collecting m slot own => ?_) fun wait => ?_) (h.fifo.withRecords fun r mem collecting _ fresh => ?_)
  · obtain ⟨r, memR, same, fits⟩ := h.records.owned x mem
    exact ⟨r, memR, same, (state r).symm ▸ fits⟩
  · exact h.records.recorded r mem (state r ▸ collecting) m (slots slot own) own
  · obtain ⟨r, memR, collecting, waits⟩ := h.records.waits wait
    exact ⟨r, memR, (state r).trans collecting, waits⟩
  · exact ⟨_, List.mem_map_of_mem mem, group r, (state r).trans collecting, fun m slot own => fresh m (slots slot own) own⟩

/-- The own readiness, just sent, is recorded: no readiness is live any more (R103). -/
theorem Agrees.recordOwn {P : Nat → Prop} {s : State} {g : Byte} {n : Nat} (h : Agrees P s) (on : onBus s = true)
    (waits : waiterOf s.cues = some (g, n)) (quiet : liveOf s.bus.readyFifo = []) (d : Nat) :
    Agrees P (modifyRecord g (recordSlot s.control.number n d) s) := by
  rw [modifyRecord_eq]
  have state : ∀ r, (changed g (recordSlot s.control.number n d) r).state = r.state := fun r => by
    unfold changed
    split <;> rfl
  have group := changed_group (g := g) (f := recordSlot s.control.number n d) fun _ => rfl
  refine h.withGroups on (h.records.change group (changed_numbers fun r => recordSlot_numbers _ n d r) h.records.single
    (fun x mem => ?_) (fun r mem collecting m slot own k j ready => ?_) fun wait => ?_) (h.fifo.quiet quiet)
  · obtain ⟨r, memR, same, fits⟩ := h.records.owned x mem
    exact ⟨r, memR, same, (state r).symm ▸ fits⟩
  · by_cases here : r.group = g
    · rw [changed, if_pos here] at slot
      obtain ⟨q, was, is⟩ := List.mem_map.mp slot
      by_cases mine : q.number = s.control.number
      · rw [if_pos mine] at is
        rw [← is] at ready
        obtain rfl : n = k := congrArg Prod.fst (Option.some.inj ready)
        rw [here]
        exact waits
      · rw [if_neg mine] at is
        exact absurd (is ▸ own) mine
    · rw [changed, if_neg here] at slot
      exact h.records.recorded r mem (state r ▸ collecting) m slot own k j ready
  · obtain ⟨r, memR, collecting, waits⟩ := h.records.waits wait
    exact ⟨r, memR, (state r).trans collecting, waits⟩

/-! ### The start event (R64, R104) -/

theorem resplit_route {p : Plan} {i n : Nat} (chosen : p.chosen = some i) : (chosenRoute (resplit p n)).legs = (chosenRoute p).legs := by
  simp only [chosenRoute, resplit, chosen, Option.bind_some, resplitAt_getElem?]
  cases p.candidates[i]? with
  | none => rfl
  | some r => exact splitRoute_legs n r.legs

theorem BuiltFrom.resplit {cfg : Configuration} {c : ShotContent} {p : Plan} {i : Nat} (h : BuiltFrom cfg c p)
    (chosen : p.chosen = some i) (n : Nat) : BuiltFrom cfg c (resplit p n) where
  target := h.target
  distance := h.distance
  direction := h.direction
  axisDuration := h.axisDuration
  footprint := h.footprint
  duration := h.duration
  candidates := by
    have was := h.candidates
    simp only [Machine.resplit, chosen] at was ⊢
    rw [was]
    cases p.common with
    | none => rfl
    | some m => exact resplitAt_resplitAt n m i _

/-- The head in GROUP_WAIT with its plan re-split to a common N (R64). -/
def resplitEntry (n : Nat) (e : CueEntry) : CueEntry := { e with plan := e.plan.map fun p => resplit p n }

theorem Planned.resplit {cfg : Configuration} {e : CueEntry} {c : ShotContent} {p : Plan} (h : Planned cfg e c p)
    (waits : e.stage = .groupWait) {n : Nat} (long : p.duration ≤ n) : Planned cfg (resplitEntry n e) c (resplit p n) := by
  obtain ⟨i, inside, chosen⟩ := h.routed (by simp [waits])
  refine ⟨h.copy, by simp [resplitEntry, h.plan], planFrom_iff.mpr ((planFrom_iff.mp h.built).resplit chosen n), h.range,
    fun routing => by simp [resplitEntry, waits] at routing, fun _ => ⟨i, ?_, chosen⟩,
    fun claiming => by simp [resplitEntry, waits] at claiming, fun m common => ?_⟩
  · show i < (Machine.resplit p n).candidates.length
    simp only [Machine.resplit, chosen, resplitAt_length]
    exact inside
  · obtain rfl : n = m := Option.some.inj common
    exact ⟨.inl waits, long⟩

theorem Agrees.resplitHead {P : Nat → Prop} {s : State} {e : CueEntry} {rest : List CueEntry} (h : Agrees P s)
    (list : s.cues = e :: rest) (waits : e.stage = .groupWait) {n : Nat} (long : ownDuration e ≤ n) :
    Agrees P { s with cues := resplitEntry n e :: rest } := by
  have place := planPlace_of (before := []) h.shape list (by simp [waits]) (by simp [waits])
  obtain ⟨c, p, right, planned, start⟩ := (place.waits h.shape).of_past (by simp [waits])
  have own : ownDuration e = p.duration := by simp [ownDuration, planned.plan]
  have mode : e.mode = .group := (h.shape.entries place.found).group waits
  obtain ⟨i, _, chosen⟩ := planned.routed (by simp [waits])
  have legs : entryLegs (resplitEntry n e) = entryLegs e := by
    rw [entryLegs_eq planned.plan, entryLegs_eq (p := resplit p n) (by simp [resplitEntry, planned.plan]), resplit_route chosen]
  have claims : stageClaims (kindAt 0) (resplitEntry n e) = stageClaims (kindAt 0) e := by
    simp only [stageClaims, waits, resplitEntry] at legs ⊢
    rw [legs]
  have same : restaged [] rest (resplitEntry n e) s = { s with cues := resplitEntry n e :: rest } := by
    rw [restaged, List.length_nil, claims]
    have was := place.own h.shape
    rw [List.length_nil] at was
    rw [was]
    rfl
  have restaged := h.restage (f' := resplitEntry n e) place (.planned c _ (by simp [resplitEntry, waits])
    (by simp [resplitEntry, waits]) right (fun _ => mode) (planned.resplit waits (own ▸ long)) start) rfl rfl
    fun _ => by simp [ownDuration, resplitEntry, planned.plan, resplit]
  rw [same] at restaged
  exact restaged.weaken fun n tested => ⟨tested, rfl, .inr (by simp [resplitEntry, planned.plan, resplit])⟩

theorem commonN_ge {r : GroupRecord} {m : Slot} (slot : m ∈ r.slots) {n d : Nat} (ready : m.ready = some (n, d)) :
    n ≤ commonN r :=
  (le_foldl_max _ 0).2 n (List.mem_map.mpr ⟨(n, d), mem_recorded.mpr ⟨m, slot, ready⟩, rfl⟩)

/-- The last readiness is the start event (R104). -/
theorem Agrees.startEvent {P : Nat → Prop} {s : State} {r : GroupRecord} (h : Agrees P s) (mem : r ∈ s.groups.records)
    (collecting : r.state = .collecting) (done : complete r = true) : Agrees P (startEvent r s) := by
  obtain ⟨m, slot, own⟩ := h.records.slot r mem
  obtain ⟨⟨n, d⟩, ready⟩ := Option.ne_none_iff_exists'.mp (complete_iff.mp done m slot)
  have waiter := h.records.recorded r mem collecting m slot own n d ready
  obtain ⟨e, rest, list, waits, group, length⟩ := waiterOf_some waiter
  have long : ownDuration e ≤ commonN r := length ▸ commonN_ge slot ready
  have others : ∀ q ∈ s.groups.records, q.group = r.group → q = r := fun q memQ same => h.records.unique memQ mem same
  have started : Agrees P { s with groups :=
      { records := s.groups.records.map (changed r.group fun r =>
          { r with state := .starting, commonN := some (commonN r), commonG := some (commonG r) })
        waitTimer := false, startDelay := some (commonG r) } } := by
    refine h.withGroups (h.onBus_of_record mem) (h.records.change (changed_group fun _ => rfl) (changed_numbers fun _ => rfl)
      h.records.single (fun x memX => ?_) (fun q memQ collecting m slot own k j ready => ?_) nofun) (h.fifo.quiet ?_)
    · obtain ⟨q, memQ, same, fits⟩ := h.records.owned x memX
      refine ⟨q, memQ, same, ?_⟩
      by_cases here : q.group = r.group
      · have phase : x.2 = .waiting := by
          have owner : (r.group, GroupPhase.waiting) ∈ groupParts s.cues :=
            mem_groupParts.mpr ⟨e, by simp [list], group, by rw [waits]; rfl⟩
          have only := List.inj_on_of_nodup_map h.records.single memX owner (same.symm.trans here)
          rw [only]
        rw [phase, changed, if_pos here]
        exact fun ended => nomatch ended
      · rw [changed, if_neg here]
        exact fits
    · by_cases here : q.group = r.group
      · rw [changed, if_pos here] at collecting
        cases collecting
      · rw [changed, if_neg here] at collecting slot
        exact h.records.recorded q memQ collecting m slot own k j ready
    · refine List.eq_nil_iff_forall_not_mem.mpr fun q live => ?_
      obtain ⟨is, r', mem', group', _, none⟩ := h.fifo.queued q live
      have same : q.group = r.group := congrArg Prod.fst (Option.some.inj (is.symm.trans waiter))
      rw [others r' mem' (group'.trans same)] at none
      simp [none m slot own] at ready
  have index : groupIndex r.group { s with groups :=
      { records := s.groups.records.map (changed r.group fun r =>
          { r with state := .starting, commonN := some (commonN r), commonG := some (commonG r) })
        waitTimer := false, startDelay := some (commonG r) } } = some 0 :=
    cueIndex_at (before := []) (e := e) (after := rest) list (by simp [group]) (by simp)
  have resplit := started.resplitHead list waits long
  unfold Machine.startEvent
  rw [modifyRecord_eq]
  dsimp only
  rw [index]
  dsimp only
  simp only [resplitAtCue, modifyCue, list, List.modify_zero_cons]
  exact resplit

theorem Agrees.recordReadiness {P : Nat → Prop} {s : State} {r : GroupRecord} {number n d : Nat}
    (h : Agrees P (modifyRecord r.group (recordSlot number n d) s)) (only : ∀ q ∈ s.groups.records, q.group = r.group → q = r)
    (collecting : r.state = .collecting) : Agrees P (recordReadiness r.group number n d s) := by
  unfold Machine.recordReadiness
  dsimp only
  split
  · rename_i q found
    have mem := groupRecord_mem found
    split
    · rename_i done
      refine h.startEvent mem ?_ done
      obtain ⟨q', mem', rfl⟩ := List.mem_map.mp mem
      have group := groupRecord_group found
      by_cases here : q'.group = r.group
      · rw [if_pos here, only q' mem' here]
        exact collecting
      · rw [if_neg here] at group
        exact absurd group here
    · exact h
  · exact h

end Sys2Proof.Machine
end

section
/-! Withdrawals, the group timers and the own readiness sent keep the agreement (R102, R103, R105 to R108). -/
namespace Sys2Proof.Machine

theorem cueIndex_found {p : CueEntry → Bool} {s : State} {k : Nat} (found : cueIndex p s = some k) :
    ∃ e, s.cues[k]? = some e ∧ p e = true := by
  obtain ⟨inside, here, _⟩ := List.findIdx?_eq_some_iff_getElem.mp found
  exact ⟨_, List.getElem?_eq_getElem inside, here⟩

/-- The bus interface changed, with a READY FIFO that agrees. -/
theorem Agrees.withBus {P : Nat → Prop} {s : State} {bus : BusInterface} (h : Agrees P s) (on : onBus s = true)
    (fifo : FifoRight s.control.number (waiterOf s.cues) s.groups.records bus.readyFifo (sendingOf { s with bus := bus })) :
    Agrees P { s with bus := bus } where
  sane := h.sane
  numbers := h.numbers
  records := h.records
  fifo := fifo
  offBus := fun off => absurd on (by rw [show onBus s = false from off]; simp)
  ascending := h.ascending
  known := h.known
  exact := h.exact
  shape := h.shape.same rfl rfl rfl rfl rfl rfl

/-- A record is owned by at most one entry, whose stage fits it. -/
theorem Agrees.record_fits {P : Nat → Prop} {s : State} {r : GroupRecord} {e : CueEntry} {k : Nat} (h : Agrees P s)
    (mem : r ∈ s.groups.records) (found : s.cues[k]? = some e) (owns : e.group = some r.group) :
    (groupPhase e.stage).fits r.state := by
  obtain ⟨q, memQ, same, fits⟩ := h.records.owned (r.group, groupPhase e.stage)
    (mem_groupParts.mpr ⟨e, List.mem_of_getElem? found, owns, rfl⟩)
  exact h.records.unique memQ mem same ▸ fits

/-! ### A withdrawal heard (R106) -/

theorem liveOf_dropped (g : Byte) (sent later : List QueuedReady) :
    liveOf (sent.map (orphaned g) ++ later.filter fun q => !isReadiness g q) =
      (liveOf (sent ++ later)).filter fun q => !isReadiness g q := by
  have marks : liveOf (sent.map (orphaned g)) = (liveOf sent).filter fun q => !isReadiness g q := by
    induction sent with
    | nil => rfl
    | cons q sent ih =>
      by_cases here : isReadiness g q = true
      · have gone : orphaned g q = { q with orphan := true } := if_pos here
        rw [List.map_cons, gone]
        unfold liveOf at ih ⊢
        rw [List.filter_cons_of_neg (by simp), ih, List.filter_cons]
        split <;> simp [here]
      · have same : orphaned g q = q := if_neg here
        rw [List.map_cons, same]
        unfold liveOf at ih ⊢
        rw [List.filter_cons, List.filter_cons]
        split <;> simp [here, ih]
  rw [liveOf_append, liveOf_append, List.filter_append, marks]
  refine congrArg _ ?_
  simp only [liveOf, List.filter_filter, Bool.and_comm]

/-- A group's readiness is dropped; of a group that the head waits for none is live after it. -/
theorem Agrees.dropReadiness {P : Nat → Prop} {s : State} (h : Agrees P s) (on : onBus s = true) (g : Byte) :
    Agrees P (dropReadiness g s) ∧
      ((∃ n, waiterOf s.cues = some (g, n)) → liveOf (Machine.dropReadiness g s).bus.readyFifo = []) := by
  obtain ⟨sent, later, split, length, clean⟩ := h.fifo.split
  have live := liveOf_dropped g sent later
  rw [← split] at live
  rw [dropReadiness_eq split (length.trans (readySent_sendingOf s).symm)]
  refine ⟨h.withBus on (h.fifo.resend split length ?_ (fun q mem => clean q (List.mem_of_mem_filter mem)) ?_ ?_), ?_⟩
  · rw [List.map_map]
    exact List.map_congr_left fun q _ => asSent_orphaned g q
  · rw [live]
    exact (List.length_filter_le _ _).trans h.fifo.one
  · rw [live]
    exact fun q mem => h.fifo.queued q (List.mem_of_mem_filter mem)
  · rintro ⟨n, waiter⟩
    show liveOf (sent.map (orphaned g) ++ later.filter fun q => !isReadiness g q) = []
    rw [live, List.filter_eq_nil_iff]
    intro q mem
    have group : (g, n) = (q.group, q.duration) := Option.some.inj (waiter.symm.trans (h.fifo.queued q mem).1)
    simp [isReadiness_iff.mpr ⟨(congrArg Prod.fst group).symm, (mem_liveOf.mp mem).2.1⟩]

theorem Agrees.abandonGroup {P : Nat → Prop} {s : State} {r : GroupRecord} (h : Agrees P s) (mem : r ∈ s.groups.records)
    (collecting : r.state = .collecting) : Agrees P (abandonGroup r.group s) := by
  unfold Machine.abandonGroup
  split
  · rename_i k index
    obtain ⟨e, found, owns⟩ := cueIndex_found index
    have owns : e.group = some r.group := by simpa using owns
    have fits := h.record_fits mem found owns
    obtain ⟨drops, quiet⟩ := h.dropReadiness (h.onBus_of_record mem) r.group
    refine drops.leaveAt _ false found (fun running => ?_) (.inr (Decidable.or_iff_not_imp_left.mpr fun waits => quiet ?_))
    · rw [running, collecting] at fits
      cases fits
    · have waits : e.stage = .groupWait := by simpa using waits
      obtain rfl : k = 0 := (h.shape.entries found).head (.inl waits)
      obtain ⟨rest, list⟩ : ∃ rest, s.cues = e :: rest := by
        cases list : s.cues with
        | nil => simp [list] at found
        | cons f rest => exact ⟨rest, by simpa [list] using found⟩
      exact ⟨ownDuration e, by rw [list, waiterOf, if_pos waits, owns]; rfl⟩
  · exact h

/-- A READY of another member is taken (R99, R100, R106). -/
theorem Agrees.takeReady {P : Nat → Prop} {s : State} {number : Nat} (h : Agrees P s) (other : number ≠ s.control.number)
    (p : ReadyPayload) : Agrees P (takeReady number p s) := by
  unfold Machine.takeReady
  split
  · exact h
  · rename_i r found
    have mem := groupRecord_mem found
    split
    · rename_i goes
      have collecting : r.state = .collecting := by simpa using (Bool.and_eq_true_iff.mp goes).2
      split
      · rw [← groupRecord_group found]
        exact h.abandonGroup mem collecting
      · rw [← groupRecord_group found]
        exact (h.recordOther (h.onBus_of_record mem) other.symm _ _ _).recordReadiness
          (fun q memQ same => h.records.unique memQ mem same) collecting
    · exact h

/-! ### The own readiness sent (R103, R145) -/

/-- A READY sent leaves the FIFO. -/
theorem Agrees.sentOut {P : Nat → Prop} {s : State} {r : QueuedReady} {bus : BusInterface} (h : Agrees P s)
    (sending : sendingOf s = some r) (idle : bus.transmission = none) (tail : bus.readyFifo = s.bus.readyFifo.tail) :
    onBus s = true ∧ Agrees P { s with bus := bus } ∧ (r.withdrawn = false →
      (s.bus.readyFifo.head?.map QueuedReady.orphan).getD false = false →
      waiterOf s.cues = some (r.group, r.duration) ∧ liveOf bus.readyFifo = []) := by
  obtain ⟨_, q, first, form⟩ := h.fifo.head r sending
  obtain ⟨rest, fifo⟩ : ∃ rest, s.bus.readyFifo = q :: rest := by
    cases fifo : s.bus.readyFifo with
    | nil => simp [fifo] at first
    | cons f rest => exact ⟨rest, by simpa [fifo] using first⟩
  have on : onBus s = true := by
    by_contra off
    simp [(h.offBus (by simpa using off)).2] at fifo
  have clean := h.fifo.clean
  rw [sending, fifo] at clean
  have none : sendingOf { s with bus := bus } = none := by simp [sendingOf, idle]
  have split : liveOf s.bus.readyFifo = liveOf [q] ++ liveOf rest := by
    rw [fifo, ← List.singleton_append, liveOf_append]
  refine ⟨on, h.withBus on ?_, fun readiness fresh => ?_⟩
  · rw [none, tail, fifo]
    have one := h.fifo.one
    rw [split, List.length_append] at one
    exact ⟨(Nat.le_add_left _ _).trans one, fun q live => h.fifo.queued q (by rw [split]; exact List.mem_append_right _ live),
      nofun, clean⟩
  · have unmarked : q.orphan = false := by simpa [fifo] using fresh
    have same : q = r := by rw [← form, ← unmarked]
    have alone : liveOf [q] = [q] := by simp [liveOf, unmarked, same ▸ readiness]
    have one := h.fifo.one
    rw [split, alone, List.length_append, List.length_singleton] at one
    refine ⟨same ▸ (h.fifo.queued q (by simp [split, alone])).1, ?_⟩
    rw [tail, fifo]
    exact List.length_eq_zero_iff.mp (by simpa using one)

theorem Agrees.readySentOut {P : Nat → Prop} {s : State} {r : QueuedReady} (h : Agrees P s) (sending : sendingOf s = some r) :
    Agrees P (readySentOut r (endTransmission s)) := by
  obtain ⟨on, gone, own⟩ := h.sentOut (bus := { (endTransmission s).bus with readyFifo := s.bus.readyFifo.tail }) sending rfl rfl
  unfold Machine.readySentOut
  dsimp only
  split
  · exact gone
  · rename_i readiness
    split
    · exact gone
    · rename_i fresh
      obtain ⟨waits, quiet⟩ := own (Bool.eq_false_iff.mpr readiness) (Bool.eq_false_iff.mpr fresh)
      split
      · rename_i g found
        split
        · rename_i collecting
          have group := groupRecord_group found
          rw [← group] at waits ⊢
          exact (gone.recordOwn on waits quiet r.delay).recordReadiness
            (fun q memQ same => h.records.unique memQ (groupRecord_mem found) same) collecting
        · exact gone
      · exact gone

/-! ### The group timers (R105, R107) -/

theorem Agrees.expireGroupWait {P : Nat → Prop} {s : State} (h : Agrees P s) (runs : s.groups.waitTimer = true) :
    Agrees P (expireGroupWait s) := by
  obtain ⟨r, mem, _, n, waiter⟩ := h.records.waits runs
  obtain ⟨e, rest, list, waits, _⟩ := waiterOf_some waiter
  have stopped : Agrees P { s with groups := { s.groups with waitTimer := false } } :=
    h.withGroups (h.onBus_of_record mem) { h.records with waits := nofun } h.fifo
  exact stopped.leaveAt (e := e) _ true (by simp [list]) (by simp [waits]) (.inl rfl)

/-- The head in GROUP_WAIT of a STARTING record is ready to start once the record is ENDED (R44, R105). -/
theorem Agrees.groupStarts {P : Nat → Prop} {s : State} {e : CueEntry} {rest : List CueEntry} {r : GroupRecord}
    (h : Agrees P s) (list : s.cues = e :: rest) (waits : e.stage = .groupWait) (owns : e.group = some r.group)
    (mem : r ∈ s.groups.records) (starting : r.state = .starting) :
    ∃ c p, Starts P (modifyRecord r.group (fun r => { r with state := .ended }) s) e rest c p := by
  obtain ⟨on, still, later, own, c, p, right, planned, start⟩ := h.shape.head list (by simp [waits]) (by simp [waits])
  have waiter : waiterOf s.cues = some (r.group, ownDuration e) := by rw [list, waiterOf, if_pos waits, owns]; rfl
  have single := h.records.single
  rw [list, groupParts_cons, owns] at single
  have notCollecting : ∀ q ∈ s.groups.records, q.state = .collecting → q.group ≠ r.group := fun q memQ collecting same => by
    simp [h.records.unique memQ mem same, starting] at collecting
  refine ⟨c, p, list, on, still.motion, .inr waits, right, planned, start, later, ?_, ?_⟩
  · refine own.trans ?_
    rw [← entryLegs_eq planned.plan]
    simp only [stageClaims, waits]
    rfl
  · rw [modifyRecord_eq]
    refine ⟨h.sane, h.numbers, ?_, h.fifo.quiet ?_,
      fun off => absurd on (by rw [show onBus s = false from off]; simp), h.ascending, h.known, fun n tested =>
      (h.exact n tested).trans (exists_congr fun q => ?_)⟩
    · refine h.records.change (changed_group fun _ => rfl) (changed_numbers fun _ => rfl) ?_ (fun x memX => ?_)
        (fun q memQ collecting m slot mine n d ready => ?_) fun wait => ?_
      · rw [groupParts_cons, owns]
        exact single
      · rw [groupParts_cons, owns] at memX
        by_cases here : x.1 = r.group
        · have phase : x = (r.group, .moving) := by
            rcases List.mem_append.mp memX with is | behind
            · exact List.mem_singleton.mp is
            · simp only [Option.map_some, Option.toList_some, List.map_cons, List.singleton_append,
                List.nodup_cons] at single
              exact absurd (List.mem_map.mpr ⟨x, behind, here⟩) single.1
          refine ⟨r, mem, here.symm, ?_⟩
          rw [phase, changed, if_pos rfl]
          rfl
        · have memS : x ∈ groupParts s.cues := by
            rw [list, groupParts_cons, owns]
            rcases List.mem_append.mp memX with is | behind
            · exact absurd (by simpa using congrArg Prod.fst (List.mem_singleton.mp is)) here
            · exact List.mem_append_right _ behind
          obtain ⟨q, memQ, same, fits⟩ := h.records.owned x memS
          exact ⟨q, memQ, same, by rw [changed, if_neg (same ▸ here)]; exact fits⟩
      · by_cases here : q.group = r.group
        · rw [changed, if_pos here] at collecting
          cases collecting
        · rw [changed, if_neg here] at collecting slot
          have was := h.records.recorded q memQ collecting m slot mine n d ready
          exact absurd (congrArg Prod.fst (Option.some.inj (was.symm.trans waiter))) here
      · obtain ⟨q, memQ, collecting, n, is⟩ := h.records.waits wait
        exact absurd (congrArg Prod.fst (Option.some.inj (is.symm.trans waiter))) (notCollecting q memQ collecting)
    · refine List.eq_nil_iff_forall_not_mem.mpr fun q live => ?_
      obtain ⟨is, q', mem', group', collecting, _⟩ := h.fifo.queued q live
      exact notCollecting q' mem' collecting (group'.trans (congrArg Prod.fst (Option.some.inj (is.symm.trans waiter))))
    · have same := peerOverlaps_congr (s := s) (t := { s with cues := { e with stage := .running } :: rest }) rfl
        (fun o _ => exemptFor_congr (planFootprint_head list rfl) o) q
      rw [← same]
      rfl

theorem entryGroupState_found {e : CueEntry} {s : State} {state : GroupState} (is : entryGroupState e s = some state) :
    ∃ r ∈ s.groups.records, e.group = some r.group ∧ r.state = state := by
  obtain ⟨g, owns, found⟩ := Option.bind_eq_some_iff.mp is
  obtain ⟨r, found, state⟩ := Option.map_eq_some_iff.mp found
  exact ⟨r, groupRecord_mem found, by rw [owns, groupRecord_group found], state⟩

theorem Agrees.groupStart {P : Nat → Prop} {s : State} (h : Agrees P s) (starting : headStarting s = true) :
    Agrees P (groupStart s) := by
  unfold headStarting at starting
  split at starting
  · cases starting
  · rename_i e rest list
    obtain ⟨waits, state⟩ : e.stage = .groupWait ∧ entryGroupState e s = some .starting := by simpa using starting
    obtain ⟨r, mem, owns, starting⟩ := entryGroupState_found state
    obtain ⟨c, p, starts⟩ := h.groupStarts list waits owns mem starting
    have start := starts.startHead
    have ends : endRecord s = modifyRecord r.group (fun r => { r with state := .ended }) s := by
      simp [endRecord, list, owns]
    unfold Machine.groupStart
    rw [ends]
    split
    · rename_i t made
      rw [made] at start
      exact start.takeUpHead
    · rename_i t made
      rw [made] at start
      exact start

theorem Agrees.expireStartDelay {P : Nat → Prop} {s : State} (h : Agrees P s) : Agrees P (expireStartDelay s) := by
  have stopped : Agrees P { s with groups := { s.groups with startDelay := none } } := by
    refine Agrees.congr ?_ h
    rfl
  unfold Machine.expireStartDelay
  dsimp only
  split
  · rename_i goes
    exact stopped.groupStart goes.2
  · exact stopped

end Sys2Proof.Machine
end

section
/-! The requests to cue list, profile generator and shot store, and the claim timers, keep the agreement (R18 to R26, R34 to R41,
R77, R81, R121). -/
namespace Sys2Proof.Machine

/-! ### CUE (R31, R35, R97) -/

theorem unread_newEntry (p : CuePayload) (mode : StartMode) : Unread (newEntry p mode) := by
  refine ⟨rfl, rfl, rfl, ?_⟩
  by_cases group : mode = .group <;> simp [modeRight, newEntry, group]

theorem newRecord_member {p : CuePayload} {number : Nat} (member : inPedestalSet p.members number = true) :
    ∃ m ∈ (newRecord p).slots, m.number = number := by
  have pedestal : 1 ≤ number ∧ number ≤ 16 := by
    have both := member
    simp only [inPedestalSet, Bool.and_eq_true] at both
    simpa [isPedestal] using both.1
  refine ⟨⟨number, none⟩, List.mem_map.mpr ⟨number, List.mem_filter.mpr ⟨?_, member⟩, rfl⟩, rfl⟩
  exact List.mem_range'_1.mpr (by omega)

theorem newRecord_blank (p : CuePayload) : ∀ m ∈ (newRecord p).slots, m.ready = none := by
  intro m mem
  obtain ⟨_, _, rfl⟩ := List.mem_map.mp mem
  rfl

/-- An unread entry joins the end of the list. -/
theorem ListShape.joined {s : State} {e : CueEntry} (shape : ListShape s) (on : onBus s = true) (unread : Unread e) :
    ListShape { s with cues := s.cues ++ [e] } := by
  cases shape with
  | empty list still own =>
    refine .waiting e [] (congrArg (· ++ [e]) list) on ⟨still.motion, still.plan, still.leg1Passed⟩ (.unread unread) (by simp) ?_
    rw [stageClaims_unread unread]
    exact own.trans (if_pos on)
  | waiting f rest list on still head later own =>
    refine .waiting f (rest ++ [e]) (congrArg (· ++ [e]) list) on ⟨still.motion, still.plan, still.leg1Passed⟩ head ?_ own
    simpa [or_imp, forall_and] using ⟨later, unread⟩
  | running f rest c p runs moves =>
    have second : Follows (configOf s) p.target (rest ++ [e]) ∧ secondClaims (rest ++ [e]) = secondClaims rest := by
      have follows := runs.second
      cases rest with
      | nil => exact ⟨⟨.unread unread, by simp [unread.queued], by simp⟩, stageClaims_unread unread _⟩
      | cons g more =>
        obtain ⟨waits, notGroup, later⟩ := follows
        exact ⟨⟨waits, notGroup, by simpa [or_imp, forall_and] using ⟨later, unread⟩⟩, rfl⟩
    refine .running f (rest ++ [e]) c p ⟨congrArg (· ++ [e]) runs.list, on, runs.stage, runs.mode, runs.planned, second.1, ?_⟩
      (moves.same rfl rfl)
    rw [second.2]
    exact runs.own

theorem waiterOf_joined {cues : List CueEntry} {e : CueEntry} (unread : Unread e) : waiterOf (cues ++ [e]) = waiterOf cues := by
  cases cues with
  | nil => exact waiterOf_cons_other (by simp [unread.queued]) _
  | cons f rest => rfl

theorem planFootprint_joined {s : State} {e : CueEntry} (unread : Unread e) (k : Nat) :
    planFootprint k { s with cues := s.cues ++ [e] } = planFootprint k s := by
  rw [planFootprint, planFootprint]
  rcases lt_trichotomy k s.cues.length with inside | rfl | outside
  · rw [List.getElem?_append_left inside]
  · simp [unread.plan]
  · rw [List.getElem?_eq_none (by simp; omega), List.getElem?_eq_none (by omega)]

theorem Agrees.addEntry {P : Nat → Prop} {s : State} {p : CuePayload} {mode : StartMode} (h : Agrees P s) (on : onBus s = true)
    (accepted : cueRefusal p mode s = none) : Agrees P (addEntry p mode s) := by
  have unread := unread_newEntry p mode
  have waiter : waiterOf (s.cues ++ [newEntry p mode]) = waiterOf s.cues := waiterOf_joined unread
  have exact : ∀ n, P n → (n ∈ s.claims.overlap ↔
      ∃ q ∈ s.peers, q.number = n ∧ peerOverlaps q { s with cues := s.cues ++ [newEntry p mode] } = true) := fun n tested =>
    (h.exact n tested).trans (exists_congr fun q => by
      rw [← peerOverlaps_congr (s := s) (t := { s with cues := s.cues ++ [newEntry p mode] }) rfl
        (fun o _ => exemptFor_congr (planFootprint_joined unread) o) q])
  have shape := h.shape.joined on unread
  unfold Machine.addEntry
  dsimp only
  split
  · rename_i group
    obtain ⟨_, ofGroup⟩ := cueRefusal_none accepted
    obtain ⟨member, _, unused, _⟩ := ofGroup group
    have fresh : ∀ q ∈ s.groups.records, q.group ≠ p.group := fun q mem same => unused (List.mem_map.mpr ⟨q, mem, same⟩)
    refine ⟨⟨h.sane, h.numbers, ?_, ?_, fun off => absurd on (by rw [show onBus s = false from off]; simp), h.ascending, h.known,
      exact⟩, shape.same rfl rfl rfl rfl rfl rfl⟩
    · have parts : groupParts (s.cues ++ [newEntry p mode]) = groupParts s.cues ++ [(p.group, .gathering)] := by
        rw [groupParts_append]
        simp [groupParts, newEntry, group, groupPhase]
      show RecordsRight _ (groupParts (s.cues ++ [newEntry p mode])) (waiterOf (s.cues ++ [newEntry p mode])) _ _
      rw [parts, waiter]
      exact h.records.join fresh rfl rfl (newRecord_member member) (newRecord_blank p)
    · show FifoRight _ (waiterOf (s.cues ++ [newEntry p mode])) _ _ _
      rw [waiter]
      exact h.fifo.withRecords fun r mem collecting _ blank => ⟨r, List.mem_append_left _ mem, rfl, collecting, blank⟩
  · rename_i single
    have parts : groupParts (s.cues ++ [newEntry p mode]) = groupParts s.cues := by
      rw [groupParts_append]
      simp [groupParts, newEntry, single]
    exact ⟨h.toAround.withList parts waiter (planFootprint_joined unread), shape⟩

theorem Agrees.takeCue {P : Nat → Prop} {s : State} (h : Agrees P s) (p : CuePayload) : Agrees P (takeCue p s) := by
  unfold Machine.takeCue
  split
  · exact h
  · rename_i mode _
    split
    · rename_i active
      unfold acceptCue
      split
      · exact h.congr (floorView_reportCue ..)
      · rename_i accepted
        exact (h.addEntry (onBus_of_active active) accepted).refill _
    · exact h.congr (floorView_reportCue ..)
    · exact h
    · exact h

/-! ### TAKE and GROUP_TAKE (R37, R38) -/

theorem Agrees.setTake {P : Nat → Prop} {s : State} (h : Agrees P s) (k : Nat) : Agrees P (setTake k s) := by
  have taken : Agrees P (modifyCue k (fun e => { e with take := true }) s) := h.congr (floorView_modifyCue k (f := fun e => { e with take := true }) (fun _ => rfl) s)
  unfold Machine.setTake
  dsimp only
  split
  · exact taken.retestHead
  · exact taken

theorem Agrees.takeTake {P : Nat → Prop} {s : State} (h : Agrees P s) (tag : Byte) : Agrees P (takeTake tag s) := by
  unfold Machine.takeTake
  split
  · split
    · exact h.setTake _
    · exact h.congr (floorView_reportCue ..)
  · exact h

theorem Agrees.takeGroupTake {P : Nat → Prop} {s : State} (h : Agrees P s) (g : Byte) : Agrees P (takeGroupTake g s) := by
  unfold Machine.takeGroupTake
  split
  · split
    · exact h.setTake _
    · exact h
  · exact h

/-! ### CANCEL (R39 to R41) -/

theorem Agrees.cancelRunning {P : Nat → Prop} {s : State} (h : Agrees P s) (running : headRunning s = true) :
    Agrees P (cancelRunning s) := by
  have ending := floorView_modifyCue 0 (f := fun e => { e with ending := some .cancelled }) (fun _ => rfl) s
  unfold Machine.cancelRunning
  split
  · exact h
  · refine h.congr ((floorView_beginStop _ ?_).trans ending)
    exact h.shape.moving.mpr running

theorem Agrees.cancelAt {P : Nat → Prop} {s : State} {k : Nat} {e : CueEntry} (h : Agrees P s) (found : s.cues[k]? = some e) :
    Agrees P (cancelAt k s) := by
  unfold Machine.cancelAt
  split
  · rename_i head
    exact h.cancelRunning head.2
  · rename_i other
    refine h.leaveAt _ true found (fun running => ?_) (.inl rfl)
    obtain rfl := (h.shape.entries found).head (.inr running)
    cases list : s.cues with
    | nil => simp [list] at found
    | cons f rest =>
      obtain rfl : f = e := by simpa [list] using found
      exact other ⟨rfl, (headRunning_cons list).mpr running⟩

theorem Agrees.takeCancel {P : Nat → Prop} {s : State} (h : Agrees P s) (tag : Byte) : Agrees P (takeCancel tag s) := by
  unfold Machine.takeCancel
  split
  · split
    · rename_i k index
      obtain ⟨e, found, _⟩ := cueIndex_found index
      exact h.cancelAt found
    · exact h.congr (floorView_reportCue ..)
  · exact h

theorem Agrees.takeCancelAll {P : Nat → Prop} {s : State} (h : Agrees P s) : Agrees P (takeCancelAll s) := by
  unfold Machine.takeCancelAll
  split
  · dsimp only
    split
    · rename_i running
      exact ((h.cancelRunning running).removeIdle _).overlapAfter
    · exact (h.removeIdle _).overlapAfter
  · exact h

/-! ### HOLD and RESUME (R121) -/

theorem floorView_changeHold (b : Bool) (s : State) : floorView (changeHold b s) = floorView s := by
  unfold changeHold
  split
  · rfl
  · rw [floorView_retarget, floorView_setMarker]
    rfl

theorem Agrees.takeHold {P : Nat → Prop} {s : State} (h : Agrees P s) : Agrees P (takeHold s) := by
  unfold Machine.takeHold
  split
  · exact h.congr (floorView_changeHold true s)
  · exact h

theorem Agrees.takeResume {P : Nat → Prop} {s : State} (h : Agrees P s) : Agrees P (takeResume s) := by
  unfold Machine.takeResume
  split
  · dsimp only
    split
    · rename_i held
      exact h.congr ((floorView_setMotion (by simp [held]) (by simp)).trans (floorView_changeHold false s))
    · exact h.congr (floorView_changeHold false s)
  · exact h

/-! ### The shot store (R18 to R26) -/

theorem floorView_writeUnlessSame (shot : Byte) (content : Record) (s : State) :
    floorView (writeUnlessSame shot content s) = floorView s := by
  unfold writeUnlessSame
  split
  · exact floorView_reportStore ..
  · split
    · exact floorView_reportStore ..
    · rfl

theorem floorView_storeShot (shot : Byte) (body : RecordBody) (s : State) : floorView (storeShot shot body s) = floorView s := by
  unfold storeShot
  split
  · exact floorView_reportStore ..
  · split
    · exact floorView_reportStore ..
    · exact floorView_writeUnlessSame ..

theorem floorView_captureShot (shot : Byte) (label : List Byte) (s : State) :
    floorView (captureShot shot label s) = floorView s := by
  unfold captureShot
  split
  · exact floorView_reportStore ..
  · split
    · exact floorView_reportStore ..
    · split
      · exact floorView_reportStore ..
      · exact floorView_writeUnlessSame ..

theorem floorView_eraseShot (shot : Byte) (s : State) : floorView (eraseShot shot s) = floorView s := by
  unfold eraseShot
  split
  · exact floorView_reportStore ..
  · exact floorView_writeUnlessSame ..

theorem floorView_readShot (first count : Byte) (s : State) : floorView (readShot first count s) = floorView s := by
  refine floorView_bus s rfl ?_
  cases s.bus.transmission <;> rfl

theorem Agrees.whileOnBus {P : Nat → Prop} {s : State} {f : State → State} (h : Agrees P s)
    (same : ∀ u, floorView (f u) = floorView u) : Agrees P (whileOnBus f s) := by
  unfold Machine.whileOnBus
  split
  · exact h.congr (same s)
  · exact h

theorem floorView_reportWrite (shot : Nat) (o : StoreOutcome) (s : State) : floorView (reportWrite shot o s) = floorView s := by
  unfold reportWrite
  split
  · exact floorView_reportStore ..
  · rfl

theorem floorView_writeVerified (w : WriteInFlight) (s : State) : floorView (writeVerified w s) = floorView s :=
  (floorView_reportWrite ..).trans rfl

theorem floorView_writeFailed (w : WriteInFlight) (s : State) : floorView (writeFailed w s) = floorView s :=
  (floorView_reportWrite ..).trans rfl

theorem Agrees.readAfresh {P : Nat → Prop} {s : State} (h : Agrees P s) (shot : Nat) : Agrees P (readAfresh shot s) := by
  unfold Machine.readAfresh
  split
  · exact h
  · split
    · exact h.takeUpHead
    · split
      · exact h
      · split
        · exact h.takeUpSecond
        · exact h

theorem Agrees.completeWrite {P : Nat → Prop} {s : State} (h : Agrees P s) (verified : Bool) :
    Agrees P (completeWrite verified s) := by
  unfold Machine.completeWrite
  split
  · exact h
  · refine Agrees.readAfresh ?_ _
    split
    · exact h.congr (floorView_writeVerified ..)
    · exact h.congr (floorView_writeFailed ..)

/-! ### The claim timers (R77, R81) -/

theorem Agrees.expireSettle {P : Nat → Prop} {s : State} (h : Agrees P s) : Agrees P (expireSettle s) := by
  unfold Machine.expireSettle
  split
  · refine Agrees.congr ?_ h
    rfl
  · rename_i k index
    obtain ⟨e, found, claiming⟩ := cueIndex_found index
    have settled := h.settled found (by simpa using claiming)
    unfold settleAt
    dsimp only
    split
    · exact settled.retestHead.overlapAll.weaken fun _ _ => trivial
    · exact settled.overlapAll.weaken fun _ _ => trivial

theorem Agrees.expireClaimWait {P : Nat → Prop} {s : State} (h : Agrees P s) : Agrees P (expireClaimWait s) := by
  unfold Machine.expireClaimWait
  split
  · refine Agrees.congr ?_ h
    rfl
  · rename_i k index
    obtain ⟨e, found, waits⟩ := cueIndex_found index
    have waits : e.stage = .routing ∨ e.stage = .claiming := by simpa using waits
    refine Agrees.congr (floorView_setMarker _) (h.leaveAt _ false found ?_ (.inr (.inl ?_)))
    · rcases waits with stage | stage <;> simp [stage]
    · rcases waits with stage | stage <;> simp [stage]

end Sys2Proof.Machine
end

section
/-! Tally, peers and transmission keep the agreement (R72, R79, R85, R94 to R96, R103, R133 to R135, R144 to R159). -/
namespace Sys2Proof.Machine

/-! ### Tally (R133 to R135) -/

theorem Agrees.setView {P : Nat → Prop} {s : State} (h : Agrees P s) (onAir : Bool) : Agrees P (setView onAir s) := by
  unfold Machine.setView
  split
  · exact h
  · refine Agrees.retestHead (h.congr ?_)
    rw [floorView_retarget, floorView_setMarker]
    rfl

theorem Agrees.takeTally {P : Nat → Prop} {s : State} (h : Agrees P s) (program : BitVec 16) : Agrees P (takeTally program s) := by
  refine Agrees.setView (Agrees.congr ?_ h) _
  rfl

theorem Agrees.loseTally {P : Nat → Prop} {s : State} (h : Agrees P s) : Agrees P (loseTally s) := by
  refine Agrees.raise _ _ (Agrees.setView (Agrees.congr ?_ h) _)
  rfl

/-! ### The peer table (R156 to R159) -/

/-- Peer table and overlap set changed together. -/
theorem Agrees.withPeers {P Q : Nat → Prop} {s : State} {l : List PeerEntry} {o : List Nat} (h : Agrees P s)
    (numbers : (l.map PeerEntry.number).Pairwise (· < ·)) (ascending : o.Pairwise (· < ·))
    (known : ∀ n ∈ o, ∃ p ∈ l, p.number = n)
    (exact : ∀ n, Q n → (n ∈ o ↔ ∃ p ∈ l, p.number = n ∧ peerOverlaps p s = true)) :
    Agrees Q { s with peers := l, claims := { s.claims with overlap := o } } where
  sane := h.sane
  numbers := numbers
  records := h.records
  fifo := h.fifo
  offBus := h.offBus
  ascending := ascending
  known := known
  exact := exact
  shape := h.shape.same rfl rfl rfl rfl rfl rfl

theorem mem_insertPeer_self (p : PeerEntry) (l : List PeerEntry) : p ∈ insertPeer p l := by
  induction l with
  | nil => simp [insertPeer]
  | cons q qs ih =>
    unfold insertPeer
    split
    · exact List.mem_cons_self
    · split
      · exact List.mem_cons_self
      · exact List.mem_cons_of_mem _ ih

theorem mem_insertPeer_other {p q : PeerEntry} {l : List PeerEntry} (other : q.number ≠ p.number) :
    q ∈ insertPeer p l ↔ q ∈ l := by
  refine ⟨fun mem => (mem_insertPeer mem).resolve_left fun same => other (congrArg PeerEntry.number same), fun mem => ?_⟩
  induction l with
  | nil => simp at mem
  | cons r rs ih =>
    unfold insertPeer
    split
    · exact List.mem_cons_of_mem _ mem
    · split
      · rename_i same
        rcases List.mem_cons.mp mem with rfl | mem
        · exact absurd same.symm other
        · exact List.mem_cons_of_mem _ mem
      · rcases List.mem_cons.mp mem with rfl | mem
        · exact List.mem_cons_self
        · exact List.mem_cons_of_mem _ (ih mem)

/-- A peer entry created or replaced: that peer is still to be tested. -/
theorem Agrees.insertPeer {P : Nat → Prop} {s : State} (h : Agrees P s) (p : PeerEntry) :
    Agrees (fun n => P n ∧ n ≠ p.number) { s with peers := insertPeer p s.peers } := by
  refine h.withPeers (o := s.claims.overlap) (insertPeer_ascending h.numbers) h.ascending (fun n mem => ?_)
    fun n ⟨tested, other⟩ => (h.exact n tested).trans (exists_congr fun q => ?_)
  · by_cases here : n = p.number
    · exact ⟨p, mem_insertPeer_self p _, here.symm⟩
    · obtain ⟨q, mem, same⟩ := h.known n mem
      exact ⟨q, (mem_insertPeer_other (same ▸ here)).mpr mem, same⟩
  · constructor
    · rintro ⟨mem, same, overlaps⟩
      exact ⟨(mem_insertPeer_other (same ▸ other)).mpr mem, same, overlaps⟩
    · rintro ⟨mem, same, overlaps⟩
      exact ⟨(mem_insertPeer_other (same ▸ other)).mp mem, same, overlaps⟩

theorem Agrees.testClaiming {P : Nat → Prop} {s : State} (h : Agrees P s) (claims : List Claim) (number : Nat) :
    Agrees P (testClaiming claims number s) := by
  unfold Machine.testClaiming
  split
  · exact h
  · rename_i k index
    obtain ⟨e, found, claiming⟩ := cueIndex_found index
    rw [found]
    dsimp only
    split
    · exact h.loseClaim found (by simpa using claiming)
    · exact h

theorem Agrees.takeState {P : Nat → Prop} {s : State} (h : Agrees P s) (number : Nat) (claims : List Claim) :
    Agrees P (takeState number claims s) :=
  (((h.insertPeer ⟨number, .live, claims⟩).testClaiming claims number).retestRoutes.overlapTest number).weaken
    fun n tested => (Decidable.em (n = number)).elim .inr fun other => .inl ⟨tested, other⟩

theorem Agrees.markLost {P : Nat → Prop} {s : State} (h : Agrees P s) (number : Nat) :
    Agrees P { s with peers := markLost number s.peers } := by
  refine h.withPeers (o := s.claims.overlap) (markLost_number number s.peers ▸ h.numbers) h.ascending (fun n mem => ?_)
    fun n tested => (h.exact n tested).trans ⟨?_, ?_⟩
  · have named : n ∈ (Machine.markLost number s.peers).map PeerEntry.number := by
      rw [markLost_number]
      obtain ⟨q, mem, same⟩ := h.known n mem
      exact List.mem_map.mpr ⟨q, mem, same⟩
    exact List.mem_map.mp named
  · rintro ⟨q, mem, same, overlaps⟩
    refine ⟨_, List.mem_map_of_mem mem, ?_, ?_⟩
    · split <;> exact same
    · split <;> exact overlaps
  · rintro ⟨q, mem, same, overlaps⟩
    obtain ⟨q, was, rfl⟩ := List.mem_map.mp mem
    refine ⟨q, was, ?_, ?_⟩
    · split at same <;> exact same
    · split at overlaps <;> exact overlaps

theorem Agrees.losePeer {P : Nat → Prop} {s : State} (h : Agrees P s) (number : Nat) : Agrees P (losePeer number s) :=
  ((h.markLost number).raise _ _).retestRoutes

theorem Agrees.forgetPeer {P : Nat → Prop} {s : State} (h : Agrees P s) (number : Nat) : Agrees P (forgetPeer number s) := by
  unfold Machine.forgetPeer
  split
  · refine Agrees.retestRoutes (h.withPeers (h.numbers.sublist (List.filter_sublist.map _)) (h.ascending.sublist List.filter_sublist)
      (fun n mem => ?_) fun n tested => ?_)
    · obtain ⟨other, mem⟩ := mem_eraseNumber.mp mem
      obtain ⟨q, peer, rfl⟩ := h.known n mem
      exact ⟨q, List.mem_filter.mpr ⟨peer, by simpa using other⟩, rfl⟩
    · rw [mem_eraseNumber, h.exact n tested]
      constructor
      · rintro ⟨other, q, mem, rfl, overlaps⟩
        exact ⟨q, List.mem_filter.mpr ⟨mem, by simpa using other⟩, rfl, overlaps⟩
      · rintro ⟨q, mem, rfl, overlaps⟩
        obtain ⟨mem, other⟩ := List.mem_filter.mp mem
        exact ⟨by simpa using other, q, mem, rfl, overlaps⟩
  · exact h

/-! ### Transmission (R144, R151, R153) -/

/-- The bus interface changed but for the READY FIFO and the READY in transmission. -/
theorem floorView_busSending (s : State) {b : BusInterface} (fifo : b.readyFifo = s.bus.readyFifo)
    (sending : sendingOf { s with bus := b } = sendingOf s) : floorView { s with bus := b } = floorView s := by
  simp only [floorView, sending, fifo]
  rfl

theorem Agrees.notSending {P : Nat → Prop} {s : State} (h : Agrees P s) (none : sendingOf s = none) :
    unmarked s.bus.readyFifo := by
  have clean := h.fifo.clean
  rw [none] at clean
  exact clean

theorem buildShotData_ready (s : State) (r : QueuedReady) : buildShotData s ≠ .ready r := by
  unfold buildShotData
  dsimp only
  split
  · simp
  · split <;> simp

/-- A READY goes into transmission from the head of its FIFO alone (R145). -/
theorem nextFrame_ready {s : State} {cls : Nat} {r : QueuedReady} (next : nextFrame s = some (cls, .ready r)) :
    ∃ rest, s.bus.readyFifo = r :: rest := by
  unfold nextFrame at next
  split at next
  · rename_i q rest fifo
    obtain ⟨_, same⟩ : 0 = cls ∧ q = r := by simpa using next
    exact ⟨rest, same ▸ fifo⟩
  · split at next
    · cases next
    · split at next
      · cases next
      · split at next
        · exact absurd (congrArg Prod.snd (Option.some.inj next)) (buildShotData_ready s r)
        · cases next

theorem Agrees.startTransmission {P : Nat → Prop} {s : State} (h : Agrees P s) (idle : Nat) :
    Agrees P (startTransmission idle s) := by
  unfold Machine.startTransmission
  split
  · rename_i may
    have none : sendingOf s = none := by simp [sendingOf, may.2.2]
    split
    · exact h
    · rename_i cls f next
      split
      · cases sent : sendingOf (beginTransmission f s) with
        | none => exact h.congr (floorView_busSending s rfl (sent.trans none.symm))
        | some r =>
          have frame : f = .ready r := by
            obtain ⟨x, is, frame⟩ := sendingOf_iff.mp sent
            exact (congrArg Transmission.frame (Option.some.inj is)).trans frame
          obtain ⟨rest, fifo⟩ := nextFrame_ready (frame ▸ next)
          have clean := h.notSending none
          rw [fifo] at clean
          have fresh : r.orphan = false := clean r List.mem_cons_self
          refine h.withBus may.1 ⟨h.fifo.one, h.fifo.queued, fun q is => ?_, ?_⟩
          · obtain rfl : r = q := Option.some.inj (sent.symm.trans is)
            exact ⟨fresh, r, congrArg List.head? fifo, by rw [← fresh]⟩
          · show unmarked (s.bus.readyFifo.drop (if (sendingOf (beginTransmission f s)).isSome then 1 else 0))
            rw [sent, fifo]
            exact fun q mem => clean q (List.mem_cons_of_mem _ mem)
      · exact h
  · exact h

theorem sendingOf_frame {s : State} {x : Transmission} (sends : s.bus.transmission = some x) (other : ∀ r, x.frame ≠ .ready r) :
    sendingOf s = none := by
  rw [sendingOf, sends]
  cases frame : x.frame with
  | ready r => exact absurd frame (other r)
  | _ => simp [frame]

theorem Agrees.completeTransmission {P : Nat → Prop} {s : State} (h : Agrees P s) : Agrees P (completeTransmission s) := by
  unfold Machine.completeTransmission
  split
  · exact h
  · rename_i x sends
    have ended : (∀ r, x.frame ≠ .ready r) → ∀ {b : BusInterface}, b.readyFifo = s.bus.readyFifo → b.transmission = none →
        Agrees P { s with bus := b } := fun other b fifo idle =>
      h.congr (floorView_busSending s fifo ((show sendingOf { s with bus := b } = none by simp [sendingOf, idle]).trans
        (sendingOf_frame sends other).symm))
    dsimp only
    split
    · rename_i r frame
      exact h.readySentOut (sendingOf_iff.mpr ⟨x, sends, frame⟩)
    · rename_i p frame
      unfold stateSentOut startSettle
      split
      · refine Agrees.congr ?_ (ended (b := { (endTransmission s).bus with
          heartbeat := true, reportsLost := s.bus.reportsLost && !(p.reportsLost && !x.reportDiscarded) }) (by simp [frame]) rfl rfl)
        rfl
      · exact ended (by simp [frame]) rfl rfl
    · rename_i frame
      exact ended (by simp [frame]) rfl rfl
    · rename_i frame
      split
      · exact ended (by simp [frame]) rfl rfl
      · exact ended (by simp [frame]) rfl rfl

theorem Agrees.countAbandon {P : Nat → Prop} {s : State} (h : Agrees P s) : Agrees P (countAbandon s) := by
  unfold Machine.countAbandon
  split
  · exact h.congr (floorView_bus s rfl rfl)
  · exact Agrees.raise _ _ (h.congr (floorView_bus s rfl rfl))

theorem Agrees.abandonTransmission {P : Nat → Prop} {s : State} (h : Agrees P s) : Agrees P (abandonTransmission s) := by
  unfold Machine.abandonTransmission
  split
  · exact h
  · rename_i x sends
    refine Agrees.countAbandon ?_
    have ended : (∀ r, x.frame ≠ .ready r) →
        Agrees P { s with bus := { s.bus with transmission := none, driverEnable := false } } := fun other =>
      h.congr (floorView_busSending s rfl (sendingOf_frame sends other).symm)
    unfold keepAbandoned
    split
    · rename_i frame
      exact (ended (by simp [frame])).congr (floorView_setMarker _)
    · rename_i r frame
      have sending : sendingOf s = some r := sendingOf_iff.mpr ⟨x, sends, frame⟩
      obtain ⟨on, gone, _⟩ := h.sentOut (bus := { s.bus with
        transmission := none, driverEnable := false, readyFifo := s.bus.readyFifo.tail }) sending rfl rfl
      split
      · exact gone
      · rename_i fresh
        obtain ⟨_, q, first, _⟩ := h.fifo.head r sending
        have clean := h.fifo.clean
        rw [sending] at clean
        refine h.withBus on ⟨h.fifo.one, h.fifo.queued, nofun, fun q' mem => ?_⟩
        have mem : q' ∈ s.bus.readyFifo := mem
        cases fifo : s.bus.readyFifo with
        | nil => simp [fifo] at first
        | cons f rest =>
          rw [fifo] at mem clean
          rcases List.mem_cons.mp mem with rfl | mem
          · simpa [fifo] using fresh
          · exact clean q' mem
    · rename_i other
      exact ended other

end Sys2Proof.Machine
end

section
/-! Station control, the drives and the timers of the axis port keep the agreement while the part hears (R4 to R10, R129, R149,
R152, R155, R170 to R183). -/
namespace Sys2Proof.Machine

/-! ### Off the bus -/

/-- The agreement of a station off the bus: nothing listed, nothing claimed. -/
theorem Agrees.emptyOff {P : Nat → Prop} {s : State} (h : Agrees P s) (off : onBus s = false) :
    s.cues = [] ∧ s.claims.own = [] ∧ Still s := by
  cases h.shape with
  | empty list still own => exact ⟨list, own.trans (by simp [off]), still⟩
  | waiting e rest list on => simp [off] at on
  | running e rest c p runs =>
    have on := runs.on
    simp [off] at on

/-- Station control and axis port changed, off the bus before and after: setpoints too are free. -/
theorem Agrees.offline {P : Nat → Prop} {s : State} {control : Control} {port : AxisPort} (h : Agrees P s)
    (off : onBus s = false) (number : control.number = s.control.number) (config : control.config = s.control.config)
    (still : onBus { s with control := control, port := port } = false) :
    Agrees P { s with control := control, port := port } := by
  obtain ⟨list, own, rests⟩ := h.emptyOff off
  have cfg : configOf { s with control := control, port := port } = configOf s := by simp [configOf, config]
  refine ⟨⟨?_, h.numbers, ?_, ?_, fun _ => h.offBus off, h.ascending, h.known, h.exact⟩,
    .empty list ⟨rests.motion, rests.plan, rests.leg1Passed⟩ (own.trans (by simp [still]))⟩
  · rw [cfg]
    exact h.sane
  · show RecordsRight control.number _ _ _ _
    rw [number]
    exact h.records
  · show FifoRight control.number _ _ _ _
    rw [number]
    exact h.fifo

/-! ### Station control (R155, R168 to R171, R178 to R183) -/

theorem Agrees.returnToOffline {P : Nat → Prop} {s : State} (h : Agrees P s) (off : onBus s = false) :
    Agrees P (returnToOffline s) :=
  (h.congr (floorView_bus s (b := { s.bus with stateMarker := false, spent := false, heartbeat := false }) rfl rfl)).offline
    off rfl rfl rfl

theorem Agrees.setIdentityConflict {P : Nat → Prop} {s : State} (h : Agrees P s) (off : onBus s = false) :
    Agrees P (setIdentityConflict s) := by
  have noted : Agrees P { s with control := { s.control with identityConflict := true, idConflictPin := true } } :=
    h.offline (port := s.port) off rfl rfl off
  unfold Machine.setIdentityConflict
  dsimp only
  split
  · exact noted.returnToOffline off
  · exact noted

theorem Agrees.duplicateStation {P : Nat → Prop} {s : State} (h : Agrees P s) : Agrees P (duplicateStation s) := by
  have spent := h.congr (floorView_endSpent s)
  unfold Machine.duplicateStation
  dsimp only
  split
  · exact spent.raise _ _
  · exact spent.raise _ _
  · rename_i off
    exact spent.setIdentityConflict (by simp [onBus, endSpent, off])
  · rename_i off
    exact spent.setIdentityConflict (by simp [onBus, endSpent, off])

theorem Agrees.enterJoining {P : Nat → Prop} {s : State} (h : Agrees P s) (off : onBus s = false) : Agrees P (enterJoining s) :=
  h.offline off rfl rfl rfl

/-- The station enters ACTIVE with PARKED laid; every peer is still to be tested. -/
theorem Agrees.laysParked {P : Nat → Prop} {s : State} (h : Agrees P s) (off : onBus s = false) :
    Agrees (fun _ => False) { s with
      control := { s.control with station := .active, joinTimer := false }
      claims := { s.claims with own := [parkedClaim s] } } := by
  obtain ⟨list, _, rests⟩ := h.emptyOff off
  exact ⟨⟨h.sane, h.numbers, h.records, h.fifo, nofun, h.ascending, h.known, fun _ => False.elim⟩,
    .empty list ⟨rests.motion, rests.plan, rests.leg1Passed⟩ rfl⟩

/-- The station in ACTIVE with PARKED laid, as the model lays it. -/
def parkedLaid (s : State) : State :=
  let t := setMarker { s with control := { s.control with station := .active, joinTimer := false } }
  setOwn [parkedClaim t] t

theorem Agrees.enterActive {P : Nat → Prop} {s : State} (h : Agrees P s) (off : onBus s = false) : Agrees P (enterActive s) := by
  have lays : Agrees (fun _ => False) (parkedLaid s) := by
    refine (h.laysParked off).congr ?_
    unfold parkedLaid
    rw [floorView_setOwn, setMarker_eq]
    rfl
  have tested : Agrees P { Machine.overlapAll (parkedLaid s) with
      bus := { (Machine.overlapAll (parkedLaid s)).bus with heartbeat := true } } :=
    (lays.overlapAll.weaken fun _ _ => trivial).congr (floorView_bus _ rfl rfl)
  unfold Machine.enterActive
  dsimp only
  split
  · rename_i stops
    exact tested.enterFaultStop (onBus_of_active stops.1)
  · exact tested

theorem floorView_clearFlags (classes : BitVec 16) (s : State) : floorView (clearFlags classes s) = floorView s := by
  unfold clearFlags
  dsimp only
  split
  · rfl
  · rw [floorView_setMarker]
    rfl

theorem Agrees.takeClearFaults {P : Nat → Prop} {s : State} (h : Agrees P s) (classes : BitVec 16) :
    Agrees P (takeClearFaults classes s) := by
  have cleared := h.congr (floorView_clearFlags classes s)
  unfold Machine.takeClearFaults
  dsimp only
  split
  · rename_i stopped
    exact cleared.congr (floorView_returnToActive (by simp [onBus, stopped.1]))
  · exact cleared

theorem Agrees.takeRestart {P : Nat → Prop} {s : State} (h : Agrees P s) : Agrees P (takeRestart s) := by
  unfold Machine.takeRestart
  split
  · exact h
  · split
    · exact h.restartEffect
    · refine Agrees.congr ?_ h
      rfl
    · rename_i moves _
      have stops := (floorView_beginStop .restart (s := setHeadEnding .cancelled s) moves).trans (floorView_setHeadEnding _ s)
      refine Agrees.congr ?_ (h.congr stops)
      rfl

/-! ### The drives (R4 to R9, R126, R129) -/

theorem Agrees.checkFollowing {P : Nat → Prop} {s : State} (h : Agrees P s) (a : Axis) (actual paired : Position) :
    Agrees P (checkFollowing a actual paired s) := by
  unfold Machine.checkFollowing
  split
  · exact h.raise _ _
  · exact h

theorem Agrees.replyInExchange {P : Nat → Prop} {s : State} (h : Agrees P s) (a : Axis) (r : DriveReply) (x : Exchange) :
    Agrees P (replyInExchange a r x s) := by
  unfold Machine.replyInExchange
  split
  · exact h
  · have recorded : Agrees P { s with port := { (recordReply a r s).port with
        exchange := some { x with replies := x.replies.set a (some r.position) } } } := h.withPort rfl
    have checked := recorded.checkFollowing a r.position (x.paired.get a)
    dsimp only
    split
    · split
      · exact recorded.raise _ _
      · exact checked.raise _ _
    · split
      · exact recorded
      · exact checked

/-- An answer to the start-up position read: the station is OFFLINE. -/
theorem Agrees.replyInRead {P : Nat → Prop} {s : State} (h : Agrees P s) (off : onBus s = false) (a : Axis) (r : DriveReply) :
    Agrees P (replyInRead a r s) := by
  unfold Machine.replyInRead
  split
  · exact h
  · dsimp only
    split
    · unfold endPositionRead
      dsimp only
      split
      · exact h.offline off rfl rfl rfl
      · exact h.offline off rfl rfl off
    · exact h.offline (control := s.control) off rfl rfl off

theorem Agrees.takeReply {P : Nat → Prop} {s : State} (h : Agrees P s) (online : s.control.station ≠ .offline → s.port.exchange ≠ none)
    (r : DriveReply) : Agrees P (takeReply r s) := by
  unfold Machine.takeReply
  split
  · split
    · exact h
    · split
      · exact h.replyInExchange ..
      · rename_i none
        have off : s.control.station = .offline := not_not.mp fun on => online on none
        split
        · exact h
        · exact h.replyInRead (by simp [onBus, off]) ..
  · exact h

theorem Agrees.expireBlanking {P : Nat → Prop} {s : State} (h : Agrees P s) : Agrees P (expireBlanking s) := by
  have checked : ∀ x, Agrees P (recheckPairs x s) := fun x => by
    refine Agrees.foldl (fun {u a} hu => ?_) Axis.all (Agrees.withPort (port := { s.port with blanking := none }) rfl h)
    unfold recheckAxis
    split
    · exact hu
    · exact hu.checkFollowing ..
  unfold Machine.expireBlanking
  split
  · exact h
  · split
    · exact (checked _).withPort rfl
    · exact checked _

/-! ### Timers of the bus interface (R149, R152) -/

theorem Agrees.expireHeartbeat {P : Nat → Prop} {s : State} (h : Agrees P s) : Agrees P (expireHeartbeat s) :=
  h.congr ((floorView_setMarker _).trans (floorView_bus s rfl rfl))

end Sys2Proof.Machine
end

section
/-! The open exchange: while the servo period timer runs, an exchange is open after every command (R5, R7). -/
namespace Sys2Proof.Machine

/-- The servo period timer and the open exchange. -/
def link (s : State) : Bool × Option Exchange := (s.port.servoTimer, s.port.exchange)

theorem link_of_kept {s t : State} (h : kept t = kept s) : link t = link s :=
  congrArg (fun k => (k.2.2.2.2.2.2.1.servoTimer, k.2.2.2.2.2.2.1.exchange)) h

/-! ### Requests -/

theorem link_takeCue (p : CuePayload) (s : State) : link (takeCue p s) = link s := by
  have added : ∀ mode, link (addEntry p mode s) = link s := fun mode => by
    unfold addEntry
    split <;> rfl
  unfold takeCue
  split
  · rfl
  · split
    · unfold acceptCue
      split
      · exact link_of_kept (kept_reportCue ..)
      · exact (link_of_kept (kept_refill ..)).trans (added _)
    · exact link_of_kept (kept_reportCue ..)
    · rfl
    · rfl

theorem link_setTake (k : Nat) (s : State) : link (setTake k s) = link s := by
  unfold setTake
  dsimp only
  split
  · exact link_of_kept (kept_retestHead _)
  · rfl

theorem link_takeTake (tag : Byte) (s : State) : link (takeTake tag s) = link s := by
  unfold takeTake
  split
  · split
    · exact link_setTake ..
    · exact link_of_kept (kept_reportCue ..)
  · rfl

theorem link_takeGroupTake (g : Byte) (s : State) : link (takeGroupTake g s) = link s := by
  unfold takeGroupTake
  split
  · split
    · exact link_setTake ..
    · rfl
  · rfl

theorem link_cancelRunning (s : State) : link (cancelRunning s) = link s := by
  unfold cancelRunning
  split
  · rfl
  · exact link_of_kept (kept_beginStop ..)

theorem link_takeCancel (tag : Byte) (s : State) : link (takeCancel tag s) = link s := by
  unfold takeCancel
  split
  · split
    · unfold cancelAt
      split
      · exact link_cancelRunning s
      · exact link_of_kept (kept_leaveAt ..)
    · exact link_of_kept (kept_reportCue ..)
  · rfl

theorem link_takeCancelAll (s : State) : link (takeCancelAll s) = link s := by
  have removed : ∀ t, link (overlapAfter t (removeIdle .cancelled t)) = link t := fun t =>
    link_of_kept ((kept_overlapAfter ..).trans (kept_removeIdle ..))
  unfold takeCancelAll
  split
  · dsimp only
    split
    · exact (removed _).trans (link_cancelRunning s)
    · exact removed s
  · rfl

theorem link_changeHold (b : Bool) (s : State) : link (changeHold b s) = link s := by
  unfold changeHold
  split
  · rfl
  · exact (link_of_kept ((kept_retarget ..).trans (kept_setMarker _))).trans rfl

theorem link_takeHold (s : State) : link (takeHold s) = link s := by
  unfold takeHold
  split
  · exact link_changeHold true s
  · rfl

theorem link_takeResume (s : State) : link (takeResume s) = link s := by
  unfold takeResume
  split
  · dsimp only
    split
    · exact (link_of_kept (kept_setMotion ..)).trans (link_changeHold false s)
    · exact link_changeHold false s
  · rfl

theorem link_writeUnlessSame (shot : Byte) (content : Record) (s : State) : link (writeUnlessSame shot content s) = link s := by
  unfold writeUnlessSame
  split
  · exact link_of_kept (kept_reportStore ..)
  · split
    · exact link_of_kept (kept_reportStore ..)
    · rfl

theorem link_storeShot (shot : Byte) (body : RecordBody) (s : State) : link (storeShot shot body s) = link s := by
  unfold storeShot
  split
  · exact link_of_kept (kept_reportStore ..)
  · split
    · exact link_of_kept (kept_reportStore ..)
    · exact link_writeUnlessSame ..

theorem link_captureShot (shot : Byte) (label : List Byte) (s : State) : link (captureShot shot label s) = link s := by
  unfold captureShot
  split
  · exact link_of_kept (kept_reportStore ..)
  · split
    · exact link_of_kept (kept_reportStore ..)
    · split
      · exact link_of_kept (kept_reportStore ..)
      · exact link_writeUnlessSame ..

theorem link_eraseShot (shot : Byte) (s : State) : link (eraseShot shot s) = link s := by
  unfold eraseShot
  split
  · exact link_of_kept (kept_reportStore ..)
  · exact link_writeUnlessSame ..

theorem link_whileOnBus {f : State → State} (same : ∀ u, link (f u) = link u) (s : State) : link (whileOnBus f s) = link s := by
  unfold whileOnBus
  split
  · exact same s
  · rfl

theorem link_readAfresh (shot : Nat) (s : State) : link (readAfresh shot s) = link s := by
  unfold readAfresh
  split
  · rfl
  · split
    · exact link_of_kept (kept_takeUpHead _)
    · split
      · rfl
      · split
        · exact link_of_kept (kept_takeUpSecond _)
        · rfl

theorem link_completeWrite (verified : Bool) (s : State) : link (completeWrite verified s) = link s := by
  have reported : ∀ shot o u, link (reportWrite shot o u) = link u := fun shot o u => by
    unfold reportWrite
    split
    · exact link_of_kept (kept_reportStore ..)
    · rfl
  unfold completeWrite
  split
  · rfl
  · refine (link_readAfresh ..).trans ?_
    split
    · exact reported ..
    · exact reported ..

/-! ### Groups, claims and transmission -/

theorem link_recordReadiness (g : Byte) (number n d : Nat) (s : State) : link (recordReadiness g number n d s) = link s := by
  unfold recordReadiness
  dsimp only
  split
  · split
    · unfold startEvent
      dsimp only
      split <;> rfl
    · rfl
  · rfl

theorem link_takeReady (number : Nat) (p : ReadyPayload) (s : State) : link (takeReady number p s) = link s := by
  unfold takeReady
  split
  · rfl
  · split
    · split
      · unfold abandonGroup
        split
        · exact link_of_kept ((kept_leaveAt ..).trans (kept_dropReadiness ..))
        · rfl
      · exact link_recordReadiness ..
    · rfl

theorem link_groupStart (s : State) : link (groupStart s) = link s := by
  have ended : link (endRecord s) = link s := by
    unfold endRecord
    split <;> rfl
  have started := (link_of_kept (kept_startHead (endRecord s))).trans ended
  unfold groupStart
  split
  · rename_i t made
    rw [made] at started
    exact (link_of_kept (kept_takeUpHead t)).trans started
  · rename_i t made
    rw [made] at started
    exact started

theorem link_expireStartDelay (s : State) : link (expireStartDelay s) = link s := by
  unfold expireStartDelay
  dsimp only
  split
  · exact link_groupStart _
  · rfl

theorem link_expireSettle (s : State) : link (expireSettle s) = link s := by
  unfold expireSettle
  split
  · rfl
  · unfold settleAt
    dsimp only
    refine (link_of_kept (kept_overlapAll _)).trans ?_
    split
    · exact link_of_kept ((kept_retestHead _).trans (kept_setOwn ..))
    · exact link_of_kept (kept_setOwn ..)

theorem link_expireClaimWait (s : State) : link (expireClaimWait s) = link s := by
  unfold expireClaimWait
  split
  · rfl
  · exact link_of_kept ((kept_setMarker _).trans (kept_leaveAt ..))

theorem link_startTransmission (idle : Nat) (s : State) : link (startTransmission idle s) = link s := by
  unfold startTransmission
  split
  · split
    · rfl
    · split <;> rfl
  · rfl

theorem link_readySentOut (r : QueuedReady) (s : State) : link (readySentOut r s) = link s := by
  unfold readySentOut
  dsimp only
  split
  · rfl
  · split
    · rfl
    · split
      · split
        · exact link_recordReadiness ..
        · rfl
      · rfl

theorem link_completeTransmission (s : State) : link (completeTransmission s) = link s := by
  unfold completeTransmission
  split
  · rfl
  · dsimp only
    split
    · exact link_readySentOut ..
    · unfold stateSentOut startSettle
      split <;> rfl
    · rfl
    · split <;> rfl

theorem link_abandonTransmission (s : State) : link (abandonTransmission s) = link s := by
  have counted : ∀ u, link (countAbandon u) = link u := fun u => by
    unfold countAbandon
    split
    · rfl
    · exact (link_of_kept (kept_raise ..)).trans rfl
  unfold abandonTransmission
  split
  · rfl
  · refine (counted _).trans ?_
    unfold keepAbandoned
    split
    · exact (link_of_kept (kept_setMarker _)).trans rfl
    · split <;> rfl
    · rfl

/-! ### Tally, peers and faults -/

theorem link_setView (onAir : Bool) (s : State) : link (setView onAir s) = link s := by
  unfold setView
  split
  · rfl
  · exact (link_of_kept ((kept_retestHead _).trans ((kept_retarget ..).trans (kept_setMarker _)))).trans rfl

theorem link_takeState (number : Nat) (claims : List Claim) (s : State) : link (takeState number claims s) = link s := by
  have tested : ∀ u, link (testClaiming claims number u) = link u := fun u => by
    unfold testClaiming
    split
    · rfl
    · split
      · rfl
      · split
        · exact link_of_kept ((kept_routeTest ..).trans (kept_setMarker _)) |>.trans (link_of_kept (kept_setOwn ..))
        · rfl
  exact (link_of_kept ((kept_overlapTest ..).trans (kept_retestRoutes _))).trans (tested _)

theorem link_losePeer (number : Nat) (s : State) : link (losePeer number s) = link s :=
  (link_of_kept ((kept_retestRoutes _).trans (kept_raise ..))).trans rfl

theorem link_forgetPeer (number : Nat) (s : State) : link (forgetPeer number s) = link s := by
  unfold forgetPeer
  split
  · exact (link_of_kept (kept_retestRoutes _)).trans rfl
  · rfl

theorem link_takeClearFaults (classes : BitVec 16) (s : State) : link (takeClearFaults classes s) = link s := by
  have cleared : link (clearFlags classes s) = link s := by
    unfold clearFlags
    dsimp only
    split
    · rfl
    · exact link_of_kept (kept_setMarker _)
  unfold takeClearFaults
  dsimp only
  split
  · exact (link_of_kept (kept_returnToActive _)).trans cleared
  · exact cleared

theorem link_takeRestart (s : State) : link (takeRestart s) = link s := by
  unfold takeRestart
  split
  · rfl
  · split
    · rfl
    · rfl
    · exact link_of_kept (t := beginStop .restart (setHeadEnding .cancelled s)) (kept_beginStop ..)

theorem link_enterActive (s : State) : link (enterActive s) = link s := by
  have tested : link (overlapAll (parkedLaid s)) = link s :=
    (link_of_kept ((kept_overlapAll _).trans ((kept_setOwn ..).trans (kept_setMarker _)))).trans rfl
  unfold enterActive
  dsimp only
  split
  · exact (link_of_kept (kept_enterFaultStop _)).trans tested
  · exact tested

/-! ### Every command -/

/-- While the servo period timer runs, an exchange is open. -/
def portOpen (s : State) : Prop := s.port.servoTimer = true → s.port.exchange ≠ none

theorem portOpen_of_link {s t : State} (same : link t = link s) (h : portOpen s) : portOpen t := by
  obtain ⟨timer, exchange⟩ := Prod.mk.inj same
  rw [portOpen, timer, exchange]
  exact h

theorem portOpen_duplicateStation {s : State} (h : portOpen s) : portOpen (duplicateStation s) := by
  unfold duplicateStation setIdentityConflict
  dsimp only
  split
  · exact portOpen_of_link (link_of_kept (kept_raise ..)) h
  · exact portOpen_of_link (link_of_kept (kept_raise ..)) h
  · split
    · exact nofun
    · exact h
  · split
    · exact nofun
    · exact h

theorem portOpen_replyInExchange (a : Axis) (r : DriveReply) (x : Exchange) {s : State} (h : portOpen s) :
    portOpen (replyInExchange a r x s) := by
  have checked : ∀ v p u, (checkFollowing a v p u).port.exchange = u.port.exchange := fun v p u =>
    kept_exchange (kept_checkFollowing ..)
  have raised : ∀ c n u, (raise c n u).port.exchange = u.port.exchange := fun c n u => kept_exchange (kept_raise ..)
  unfold replyInExchange
  split
  · exact h
  · intro _
    dsimp only
    split
    · rw [raised]
      split
      · simp
      · simp [checked]
    · split
      · simp
      · simp [checked]

theorem portOpen_replyInRead (a : Axis) (r : DriveReply) {s : State} (h : portOpen s) : portOpen (replyInRead a r s) := by
  unfold replyInRead
  split
  · exact h
  · dsimp only
    split
    · unfold endPositionRead
      dsimp only
      split
      · exact fun _ => by simp [enterJoining]
      · exact h
    · exact h

theorem portOpen_takeReply (r : DriveReply) {s : State} (h : portOpen s) : portOpen (takeReply r s) := by
  unfold takeReply
  split
  · split
    · exact h
    · split
      · exact portOpen_replyInExchange _ _ _ h
      · split
        · exact h
        · exact portOpen_replyInRead _ _ h
  · exact h

theorem portOpen_heard {h : Header} {f : State → State} {s : State} (opens : portOpen s)
    (same : ∀ u, portOpen u → portOpen (f u)) : portOpen (heard h f s) := by
  unfold heard whenHearing
  split
  · dsimp only
    split
    · exact portOpen_duplicateStation opens
    · exact same _ opens
  · exact opens

theorem portOpen_request {h : Header} {f : State → State} {s : State} (opens : portOpen s) (same : ∀ u, link (f u) = link u) :
    portOpen (heardFromCue h f s) := by
  refine portOpen_heard opens fun u opens => ?_
  unfold fromCueStation
  split
  · exact portOpen_of_link (same u) opens
  · exact opens

theorem portOpen_event {f : State → State} {s : State} (opens : portOpen s) (same : ∀ u, link (f u) = link u) :
    portOpen (whenHearing f s) := by
  unfold whenHearing
  split
  · exact portOpen_of_link (same s) opens
  · exact opens

theorem link_expiry {test : State → Bool} {f : State → State} (same : ∀ u, link (f u) = link u) (s : State) :
    link (if test s then f s else s) = link s := by
  split
  · exact same s
  · rfl

theorem exec_portOpen {c : Instr} {s t : State} (opens : portOpen s) (run : exec c s = .next t)
    (plain : isStartCommand c = false) : portOpen t := by
  cases c <;> simp only [isStartCommand, Bool.true_eq_false] at plain <;>
    (obtain rfl := Host.Outcome.next.inj run; clear plain run)
  case positionReadInterval => exact portOpen_event opens fun u => by split <;> rfl
  case driveReply r =>
    unfold whenHearing
    split
    · exact portOpen_takeReply r opens
    · exact opens
  case servoPeriodExpiry =>
    unfold whenHearing
    split
    · dsimp only
      split
      · exact fun _ => by simp [servoPeriod, openExchange]
      · exact opens
    · exact opens
  case blankingWindowExpiry => exact portOpen_event opens fun u => link_of_kept (kept_expireBlanking u)
  case frameDiscarded => exact opens
  case duplicateStationEvent =>
    unfold whenHearing
    split
    · exact portOpen_duplicateStation opens
    · exact opens
  case frameHeardNotTaken => exact portOpen_heard opens fun _ => id
  case cue h p => exact portOpen_request opens (link_takeCue p)
  case take h tag => exact portOpen_request opens (link_takeTake tag)
  case groupTake h g => exact portOpen_request opens (link_takeGroupTake g)
  case cancel h tag => exact portOpen_request opens (link_takeCancel tag)
  case cancelAll => exact portOpen_request opens link_takeCancelAll
  case hold => exact portOpen_request opens link_takeHold
  case resume => exact portOpen_request opens link_takeResume
  case storeShot h shot body => exact portOpen_request opens (link_whileOnBus (link_storeShot shot body))
  case captureShot h shot label => exact portOpen_request opens (link_whileOnBus (link_captureShot shot label))
  case eraseShot h shot => exact portOpen_request opens (link_whileOnBus (link_eraseShot shot))
  case readShot h first count => exact portOpen_request opens (link_whileOnBus fun _ => rfl)
  case writeCompletion verified => exact portOpen_event opens (link_completeWrite verified)
  case clearFaults h classes => exact portOpen_request opens (link_takeClearFaults classes)
  case forgetPeer h number => exact portOpen_request opens (link_forgetPeer number.toNat)
  case online h =>
    refine portOpen_heard opens fun u opens => ?_
    unfold fromCueStation
    split
    · dsimp only
      split
      · exact fun _ => by simp [enterJoining]
      · exact opens
    · exact opens
  case restart => exact portOpen_request opens link_takeRestart
  case tally h program =>
    refine portOpen_heard opens fun u opens => ?_
    split
    · exact portOpen_of_link ((link_setView ..).trans rfl) opens
    · exact opens
  case stateFrame h p =>
    refine portOpen_heard opens fun u opens => ?_
    split
    · exact portOpen_of_link (link_takeState ..) opens
    · exact opens
  case ready h p => exact portOpen_heard opens fun u => portOpen_of_link (link_takeReady ..)
  case transmissionStart idle => exact portOpen_event opens (link_startTransmission idle)
  case transmissionCompletion => exact portOpen_event opens link_completeTransmission
  case abandon => exact portOpen_event opens link_abandonTransmission
  case spentIdleExpiry => exact portOpen_event opens fun _ => rfl
  case settleExpiry => exact portOpen_event opens (link_expiry link_expireSettle)
  case claimWaitExpiry => exact portOpen_event opens (link_expiry link_expireClaimWait)
  case groupWaitExpiry => exact portOpen_event opens (link_expiry fun _ => (link_of_kept (kept_leaveAt ..)).trans rfl)
  case startDelayExpiry => exact portOpen_event opens (link_expiry link_expireStartDelay)
  case tallyAgeExpiry =>
    exact portOpen_event opens (link_expiry fun _ => (link_of_kept (kept_raise ..)).trans ((link_setView ..).trans rfl))
  case peerAgeExpiry number => exact portOpen_event opens (link_expiry (link_losePeer number))
  case heartbeatExpiry => exact portOpen_event opens (link_expiry fun _ => (link_of_kept (kept_setMarker _)).trans rfl)
  case joinTimerExpiry => exact portOpen_event opens (link_expiry link_enterActive)

end Sys2Proof.Machine
end

section
/-! Every command keeps the agreement while the part hears, and what station control and the start sequence add to it (R175 to
R180). -/
namespace Sys2Proof.Machine

/-! ### Commands heard and events -/

section
variable {P : Nat → Prop} {s : State} (agrees : Agrees P s)
include agrees

theorem Agrees.heard {h : Header} {f : State → State}
    (keeps : ∀ u, sourceOf h ≠ u.control.number → Agrees P u → Agrees P (f u)) : Agrees P (heard h f s) := by
  unfold Machine.heard whenHearing
  split
  · dsimp only
    split
    · exact agrees.duplicateStation
    · rename_i other
      exact keeps _ other (agrees.congr (floorView_endSpent s))
  · exact agrees

theorem Agrees.request {h : Header} {f : State → State} (keeps : ∀ u, Agrees P u → Agrees P (f u)) :
    Agrees P (heardFromCue h f s) := by
  refine agrees.heard fun u _ hu => ?_
  unfold fromCueStation
  split
  · exact keeps u hu
  · exact hu

theorem Agrees.event {f : State → State} (keeps : Agrees P (f s)) : Agrees P (whenHearing f s) := by
  unfold whenHearing
  split
  · exact keeps
  · exact agrees

theorem Agrees.expiry {test : State → Bool} {f : State → State} (keeps : test s = true → Agrees P (f s)) :
    Agrees P (whenHearing (fun s => if test s then f s else s) s) := by
  refine agrees.event ?_
  split
  · rename_i due
    exact keeps due
  · exact agrees

end

theorem Agrees.takeOnline {P : Nat → Prop} {s : State} (h : Agrees P s) :
    Agrees P (if mayGoOnline s then Machine.enterJoining s else s) := by
  split
  · rename_i may
    exact h.enterJoining (by simp [onBus, (mayGoOnline_iff.mp may).1])
  · exact h

/-- Every command but those of supply, reset and the start sequence keeps the agreement. -/
theorem Agrees.exec {P : Nat → Prop} {c : Instr} {s t : State} (h : Agrees P s)
    (online : s.control.station ≠ .offline → s.port.exchange ≠ none)
    (joins : s.control.joinTimer = true → s.control.station = .joining) (run : exec c s = .next t)
    (plain : isStartCommand c = false) : Agrees P t := by
  cases c <;> simp only [isStartCommand, Bool.true_eq_false] at plain <;>
    (obtain rfl := Host.Outcome.next.inj run; clear plain run)
  case positionReadInterval =>
    refine h.event ?_
    dsimp only
    split
    · exact h
    · exact h.withPort rfl
  case driveReply r => exact h.event (h.takeReply online r)
  case servoPeriodExpiry => exact h.expiry (test := fun s => s.port.servoTimer) fun _ => h.servoPeriod
  case blankingWindowExpiry => exact h.event h.expireBlanking
  case frameDiscarded => exact h
  case duplicateStationEvent => exact h.event h.duplicateStation
  case frameHeardNotTaken => exact h.heard fun _ _ hu => hu
  case cue _ p => exact h.request fun _ hu => hu.takeCue p
  case take _ tag => exact h.request fun _ hu => hu.takeTake tag
  case groupTake _ g => exact h.request fun _ hu => hu.takeGroupTake g
  case cancel _ tag => exact h.request fun _ hu => hu.takeCancel tag
  case cancelAll => exact h.request fun _ hu => hu.takeCancelAll
  case hold => exact h.request fun _ hu => hu.takeHold
  case resume => exact h.request fun _ hu => hu.takeResume
  case storeShot _ shot body => exact h.request fun _ hu => hu.whileOnBus (floorView_storeShot shot body)
  case captureShot _ shot label => exact h.request fun _ hu => hu.whileOnBus (floorView_captureShot shot label)
  case eraseShot _ shot => exact h.request fun _ hu => hu.whileOnBus (floorView_eraseShot shot)
  case readShot _ first count => exact h.request fun _ hu => hu.whileOnBus (floorView_readShot first count)
  case writeCompletion verified => exact h.event (h.completeWrite verified)
  case clearFaults _ classes => exact h.request fun _ hu => hu.takeClearFaults classes
  case forgetPeer _ number => exact h.request fun _ hu => hu.forgetPeer number.toNat
  case online => exact h.request fun _ hu => hu.takeOnline
  case restart => exact h.request fun _ hu => hu.takeRestart
  case tally _ program =>
    refine h.heard fun u _ hu => ?_
    split
    · exact hu.takeTally program
    · exact hu
  case stateFrame _ p =>
    refine h.heard fun u _ hu => ?_
    split
    · exact hu.takeState _ _
    · exact hu
  case ready _ p => exact h.heard fun _ other hu => hu.takeReady other p
  case transmissionStart idle => exact h.event (h.startTransmission idle)
  case transmissionCompletion => exact h.event h.completeTransmission
  case abandon => exact h.event h.abandonTransmission
  case spentIdleExpiry => exact h.event (h.congr (floorView_endSpent s))
  case settleExpiry => exact h.expiry (test := fun s => s.claims.settleTimer) fun _ => h.expireSettle
  case claimWaitExpiry => exact h.expiry (test := fun s => s.claims.claimWaitTimer) fun _ => h.expireClaimWait
  case groupWaitExpiry => exact h.expiry (test := fun s => s.groups.waitTimer) h.expireGroupWait
  case startDelayExpiry => exact h.expiry (test := fun s => s.groups.startDelay.isSome) fun _ => h.expireStartDelay
  case tallyAgeExpiry => exact h.expiry (test := fun s => s.tally.timer) fun _ => h.loseTally
  case peerAgeExpiry number => exact h.expiry (test := peerLive number) fun _ => h.losePeer number
  case heartbeatExpiry => exact h.expiry (test := fun s => s.bus.heartbeat) fun _ => h.expireHeartbeat
  case joinTimerExpiry =>
    exact h.expiry (test := fun s => s.control.joinTimer) fun due => h.enterActive (by simp [onBus, joins due])

/-! ### Station control (R174 to R180) -/

/-- The configuration held passed its check (R177). -/
def configChecked (s : State) : Prop :=
  ∀ cfg, s.control.config = some cfg → ∃ number image, checkConfiguration number image = some cfg

/-- What station control owes the agreement while the part hears. -/
structure GroundRight (s : State) : Prop where
  checked : configChecked s
  online : s.control.station ≠ .offline → s.control.config ≠ none ∧ s.control.readEnded = true
  servo : s.port.servoTimer = true ↔ s.control.station ≠ .offline
  joins : s.control.joinTimer = true → s.control.station = .joining

/-- Station control as the start sequence leaves it until hearing begins. -/
structure GroundStarts (s : State) : Prop where
  checked : configChecked s
  offline : s.control.station = .offline
  servo : s.port.servoTimer = false
  joins : s.control.joinTimer = false

/-- Station control through all phases. -/
def groundRight (s : State) : Prop :=
  match s.control.phase with
  | .unpowered => True
  | .heldInReset => True
  | .readingConfiguration => GroundStarts s
  | .checkingStore => GroundStarts s
  | .hearing => GroundRight s

theorem groundRight_hearing {s : State} (hearing : hears s) : groundRight s ↔ GroundRight s := by
  rw [groundRight, show s.control.phase = .hearing from hearing]

theorem groundRight_starting {s : State} (starting : s.control.phase = .readingConfiguration ∨ s.control.phase = .checkingStore) :
    groundRight s ↔ GroundStarts s := by
  rcases starting with phase | phase <;> rw [groundRight, phase]

/-- What station control and the servo period timer show to `groundRight`. -/
def groundView (s : State) :=
  (s.control.phase, s.control.config, s.control.readEnded, s.port.servoTimer, s.control.joinTimer)

theorem groundRight_of_view {s t : State} (same : groundView t = groundView s)
    (offline : t.control.station = .offline ↔ s.control.station = .offline)
    (joining : s.control.station = .joining → t.control.station = .joining) (right : groundRight s) : groundRight t := by
  obtain ⟨phase, config, readEnded, servo, join⟩ : t.control.phase = s.control.phase ∧ t.control.config = s.control.config ∧
      t.control.readEnded = s.control.readEnded ∧ t.port.servoTimer = s.port.servoTimer ∧
      t.control.joinTimer = s.control.joinTimer := by simpa only [groundView, Prod.mk.injEq] using same
  have checked : configChecked s → configChecked t := by rw [configChecked, configChecked, config]; exact id
  have starts : GroundStarts s → GroundStarts t := fun h =>
    ⟨checked h.checked, offline.mpr h.offline, servo.trans h.servo, join.trans h.joins⟩
  have heard : GroundRight s → GroundRight t := fun h =>
    ⟨checked h.checked, by rw [config, readEnded, ne_eq, offline]; exact h.online,
      by rw [servo, ne_eq, offline]; exact h.servo, fun due => joining (h.joins (join ▸ due))⟩
  rw [groundRight] at right ⊢
  rw [phase]
  split at right
  · trivial
  · trivial
  · exact starts right
  · exact starts right
  · exact heard right

theorem update_groundRight {s t : State} (h : Update s t) (right : groundRight s) : groundRight t := by
  have moved := update_moved h
  have same := update_fixed h
  have control := congrArg Prod.fst same
  refine groundRight_of_view ?_ ⟨fun off => ?_, fun off => ?_⟩ (fun joins => ?_) right
  · have phase := congrArg (·.1.phase) same
    have config := congrArg (·.1.config) same
    have readEnded := congrArg (·.1.readEnded) same
    have join := congrArg (·.1.joinTimer) same
    simp only [fixed] at phase config readEnded join
    rw [groundView, phase, config, readEnded, join, fixed_servoTimer same]
    rfl
  · rw [← moved.came (by simp [off])]
    exact off
  · rw [moved.stays (by simp [off])]
    exact off
  · rw [moved.stays (by simp [joins])]
    exact joins

theorem turn_groundRight {s t : State} (h : Turn s t) (right : groundRight s) : groundRight t := by
  cases h
  case halt p pin agrees =>
    rw [haltPart_eq]
    rcases agrees with rfl | ⟨rfl, _⟩ <;> trivial
  case pin level off =>
    rw [groundRight, show (setResetPin level s).control.phase = .unpowered from off]
    trivial
  case start =>
    have none : (startSequence s).control.config = Option.none := rfl
    exact (groundRight_starting (s := startSequence s) (.inl rfl)).mpr ⟨fun cfg some => by simp [none] at some, rfl, rfl, rfl⟩
  case transfer => exact groundRight_of_view (s := s) rfl Iff.rfl id right
  case configured straps image reading =>
    have starts := (groundRight_starting (.inl reading)).mp right
    exact ⟨fun cfg passes => ⟨_, _, passes⟩, starts.offline, starts.servo, starts.joins⟩
  case hear checking =>
    obtain ⟨checked, offline, servo, joins⟩ := (groundRight_starting (.inr checking)).mp right
    exact ⟨checked, fun on => absurd offline on, by simp [servo, offline], by simp [joins]⟩
  case readEnd =>
    have heard : GroundRight s → GroundRight { s with control := { s.control with readEnded := true } } := fun h =>
      ⟨h.checked, fun on => ⟨(h.online on).1, rfl⟩, h.servo, h.joins⟩
    have starts : GroundStarts s → GroundStarts { s with control := { s.control with readEnded := true } } := fun h =>
      ⟨h.checked, h.offline, h.servo, h.joins⟩
    unfold groundRight at right ⊢
    dsimp only
    split at right
    · trivial
    · trivial
    · exact starts right
    · exact starts right
    · exact heard right
  case join hearing may =>
    obtain ⟨checked, online, servo, joins⟩ := (groundRight_hearing hearing).mp right
    obtain ⟨_, config, ended, _⟩ := mayGoOnline_iff.mp may
    refine (groundRight_hearing (s := enterJoining s) hearing).mpr ⟨checked, fun _ => ⟨config, ended⟩, by simp [enterJoining], fun _ => rfl⟩
  case conflict hearing off =>
    obtain ⟨checked, online, servo, joins⟩ := (groundRight_hearing hearing).mp right
    unfold setIdentityConflict
    dsimp only
    split
    · exact (groundRight_hearing (by exact hearing)).mpr ⟨checked, nofun, by simp [returnToOffline], nofun⟩
    · exact groundRight_of_view (s := s) rfl Iff.rfl id right
  case activate hearing joined =>
    obtain ⟨checked, online, servo, joins⟩ := (groundRight_hearing hearing).mp right
    refine (groundRight_hearing (by exact hearing)).mpr ⟨checked, fun _ => online ?_, ?_, nofun⟩
    · simp [joins joined]
    · simp [servo, joins joined]
  case stop active =>
    rw [setFaultStop_eq]
    exact groundRight_of_view (s := s) rfl (by simp [active]) (by simp [active]) right
  case clear classes =>
    have same : (clearFlags classes s).control = s.control ∧ (clearFlags classes s).port = s.port := by
      unfold clearFlags
      dsimp only
      split
      · exact ⟨rfl, rfl⟩
      · simp
    refine groundRight_of_view ?_ (by rw [same.1]) (by rw [same.1]; exact id) right
    rw [groundView, same.1, same.2]
    rfl
  case release hearing stopped =>
    rw [returnToActive_eq]
    exact groundRight_of_view (s := s) rfl (by simp [stopped]) (by simp [stopped]) right
  case restart hearing online' =>
    obtain ⟨checked, online, servo, joins⟩ := (groundRight_hearing hearing).mp right
    have on : s.control.station ≠ .offline := online'.elim id servo.mp
    exact (groundRight_hearing (s := restartEffect s) hearing).mpr ⟨checked, fun _ => online on, by simp [restartEffect, servo, on], fun _ => rfl⟩

end Sys2Proof.Machine
end

section
/-! The floor agreement through the start sequence, and the whole of what every step keeps (R175 to R177). -/
namespace Sys2Proof.Machine

/-! ### The start sequence -/

theorem floorAgreement_off {s : State} (off : s.control.phase = .unpowered ∨ s.control.phase = .heldInReset) :
    floorAgreement s := by
  rcases off with phase | phase <;> simp only [floorAgreement, phase]

theorem floorAgreement_starting {s : State}
    (starting : s.control.phase = .readingConfiguration ∨ s.control.phase = .checkingStore) :
    floorAgreement s ↔ floorAgreement.startsEmpty s := by
  rcases starting with phase | phase <;> simp only [floorAgreement, phase]

theorem floorAgreement_startSequence (s : State) : floorAgreement (startSequence s) := by
  have none : (startSequence s).control.config = Option.none := rfl
  exact (floorAgreement_starting (.inl rfl)).mpr
    ⟨rfl, fun cfg some => by simp [none] at some, rfl, rfl, rfl, rfl, rfl, rfl, rfl, rfl, rfl⟩

theorem floorAgreement_haltPart (p : Phase) (off : p = .unpowered ∨ p = .heldInReset) (s : State) :
    floorAgreement (haltPart p s) :=
  floorAgreement_off off

/-- Nothing listed, claimed, queued or known: all agrees. -/
theorem agrees_of_startsEmpty {P : Nat → Prop} {s : State} (empty : floorAgreement.startsEmpty s) : Agrees P s := by
  obtain ⟨offline, checked, cues, peers, claims, groups, motion, plan, passed, fifo, transmission⟩ := empty
  have off : onBus s = false := by simp [onBus, offline]
  have records : s.groups.records = [] := by rw [groups]; rfl
  have wait : s.groups.waitTimer = false := by rw [groups]; rfl
  have overlap : s.claims.overlap = [] := by rw [claims]; rfl
  refine ⟨⟨sane_of_checked checked, by simp [peers], ?_, ?_, fun _ => ⟨records, fifo⟩, by simp [overlap], by simp [overlap],
    fun n _ => by simp [overlap, peers]⟩, .empty cues ⟨motion, plan, passed⟩ (by rw [claims, off]; rfl)⟩
  · rw [records, wait, cues]
    exact ⟨List.nodup_nil, List.nodup_nil, nofun, nofun, nofun, nofun⟩
  · rw [fifo, show sendingOf s = none by simp [sendingOf, transmission]]
    exact ⟨Nat.zero_le _, nofun, nofun, nofun⟩

/-- The start-up check ends with nothing listed, claimed or queued (R29, R175). -/
theorem Agrees.checkedStore {P : Nat → Prop} {s : State} (h : Agrees P s) : Agrees P (checkedStore s) := by
  refine Agrees.foldl (fun hu => hu.raise _ _) _ (Agrees.congr ?_ h)
  rfl

theorem floorAgreement_startCommand {c : Instr} {s t : State} (agrees : floorAgreement s) (ground : groundRight t)
    (peers : peersRight s → peersRight t) (run : exec c s = .next t) (start : isStartCommand c = true) : floorAgreement t := by
  cases c <;> simp only [isStartCommand, Bool.false_eq_true] at start <;>
    (obtain rfl := Host.Outcome.next.inj run; clear start run)
  case powerOn =>
    split
    · exact floorAgreement_haltPart _ (.inr rfl) s
    · exact floorAgreement_startSequence s
  case pinReset =>
    split
    · rename_i off
      exact floorAgreement_off (.inl off)
    · exact floorAgreement_startSequence s
  case resetAsserted =>
    split
    · rename_i off
      exact floorAgreement_off (.inl off)
    · exact floorAgreement_haltPart _ (.inr rfl) _
  case powerLoss => exact floorAgreement_haltPart _ (.inl rfl) s
  case configTransferAbandon =>
    split
    · rename_i reading
      have empty := (floorAgreement_starting (.inl reading)).mp agrees
      exact (floorAgreement_starting (.inl (by exact reading))).mpr empty
    · exact agrees
  case configurationCheck straps image =>
    split
    · rename_i reading
      obtain ⟨offline, _, rest⟩ := (floorAgreement_starting (.inl reading)).mp agrees
      exact (floorAgreement_starting (.inr rfl)).mpr ⟨offline, fun cfg passes => ⟨_, _, passes⟩, rest⟩
    · exact agrees
  case startUpCheck =>
    split
    case isFalse => exact agrees
    case isTrue checking =>
      rw [if_pos checking] at ground peers
      have empty := (floorAgreement_starting (.inr checking)).mp agrees
      have offline : (checkedStore s).control.station = .offline := by
        rw [(does_moved (does_checkedStore s)).stays (by simp [empty.1])]
        exact empty.1
      have right := (groundRight_hearing rfl).mp ground
      have none : s.peers = [] := empty.2.2.2.1
      refine (floorAgreement_iff rfl).mpr ⟨⟨right.checked, fun on => absurd offline on, peers (by simp [peersRight, none])⟩, ?_⟩
      refine Agrees.congr ?_ (agrees_of_startsEmpty empty).checkedStore
      rfl

/-! ### Every step -/

theorem kept_hears {s t : State} (same : kept t = kept s) (hearing : hears s) : hears t := (kept_phase same).trans hearing

theorem effect_hears {c : Instr} {s t : State} (h : Effect c s t) (hearing : hears s) : hears t := by
  have back : ∀ {u v : State}, hears u → (v = u ∨ (u.control.station = .faultStop ∧ stopFlagSet u = false ∧
      v = returnToActive u)) → hears v := by
    rintro u v up (rfl | ⟨_, _, rfl⟩)
    · exact up
    · exact kept_hears (kept_returnToActive u) up
  cases h with
  | updates done => exact (does_hears done).mpr hearing
  | conflict =>
    unfold setIdentityConflict
    dsimp only
    split <;> exact hearing
  | readEnd done => exact (does_hears done).mpr hearing
  | joinAfterRead _ done => exact (does_hears done).mpr hearing
  | join => exact hearing
  | activate _ _ _ done ends =>
    have up := (does_hears done).mpr hearing
    rcases ends with ⟨rfl, _⟩ | ⟨_, _, rfl⟩
    · exact up
    · exact kept_hears (kept_enterFaultStop _) up
  | clear _ w _ ends =>
    have up : hears (clearFlags w (endSpent s)) := by
      unfold clearFlags
      dsimp only
      split
      · exact hearing
      · exact kept_hears (kept_setMarker _) hearing
    exact back up (ends.imp_right id)
  | restart => exact hearing
  | period _ _ _ before returned restarts after =>
    have up := back ((does_hears before).mpr hearing) returned
    refine (does_hears after).mpr ?_
    rcases restarts with rfl | rfl
    · exact up
    · exact up

theorem groundRight_of_agreement {s : State} (timers : stationTimersRight s) (agrees : floorAgreement s) : groundRight s := by
  obtain ⟨joins, servo⟩ := timers
  have starts : ¬hears s → floorAgreement.startsEmpty s → GroundStarts s := fun deaf ⟨offline, checked, _⟩ =>
    ⟨checked, offline, Bool.eq_false_iff.mpr fun runs => deaf (servo.mp runs).1,
      Bool.eq_false_iff.mpr fun runs => deaf (joins runs).1⟩
  unfold groundRight
  split
  · trivial
  · trivial
  · rename_i phase
    exact starts (by simp [hears, phase]) ((floorAgreement_starting (.inl phase)).mp agrees)
  · rename_i phase
    exact starts (by simp [hears, phase]) ((floorAgreement_starting (.inr phase)).mp agrees)
  · rename_i hearing
    obtain ⟨right, _⟩ := (floorAgreement_iff hearing).mp agrees
    exact ⟨right.checked, fun on => ⟨(right.online on).1, (right.online on).2.1⟩,
      servo.trans (and_iff_right hearing), fun due => (joins due).2⟩

theorem exec_floorAgreement {c : Instr} {s t : State} (timers : stationTimersRight s) (agrees : floorAgreement s)
    (run : exec c s = .next t) : floorAgreement t := by
  have ground : groundRight t := runs_keep update_groundRight turn_groundRight (exec_runs run) (groundRight_of_agreement timers agrees)
  have peers : peersRight s → peersRight t := runs_keep update_peersRight turn_peersRight (exec_runs run)
  cases plain : isStartCommand c with
  | true => exact floorAgreement_startCommand agrees ground peers run plain
  | false =>
    by_cases hearing : hears s
    · have still := effect_hears (exec_effect run plain) hearing
      obtain ⟨station, floor⟩ := (floorAgreement_iff hearing).mp agrees
      have online : s.control.station ≠ .offline → s.port.exchange ≠ none := fun on => (station.online on).2.2
      have opens : portOpen t := exec_portOpen (fun runs => online (timers.2.mp runs).2) run plain
      have right := (groundRight_hearing still).mp ground
      refine (floorAgreement_iff still).mpr ⟨⟨right.checked, fun on => ?_, peers station.peers⟩,
        floor.exec online (fun due => (timers.1 due).2) run plain⟩
      obtain ⟨config, ended⟩ := right.online on
      exact ⟨config, ended, opens (right.servo.mpr on)⟩
    · obtain rfl := Host.Outcome.next.inj ((exec_deaf plain hearing).symm.trans run)
      exact agrees

theorem step_floorAgreement {s t : State} (run : step s = .next t) (timers : stationTimersRight s) (agrees : floorAgreement s) :
    floorAgreement t := by
  unfold step at run
  split at run
  · obtain rfl := Host.Outcome.next.inj run
    exact agrees
  · rename_i c rest _
    exact exec_floorAgreement (s := s.withPending rest) timers agrees run

/-- Settles O53: memory, capacities, names and peers through every update and turn; the floor agreement command by command, in
the shapes the cue list takes. -/
theorem stepKeepsMemoryAndCapacities : Obligations.StepKeepsMemoryAndCapacities := fun _ _ run =>
  ⟨step_keeps (fun _ _ => id) (runs_keep update_storeSound turn_storeSound) run,
    step_keeps (fun _ _ => id) (runs_keep update_withinCapacity turn_withinCapacity) run,
    step_keeps (fun _ _ => id) (runs_keep update_distinctNames turn_distinctNames) run,
    step_keeps (fun _ _ => id) (runs_keep update_peersRight turn_peersRight) run,
    step_floorAgreement run⟩

end Sys2Proof.Machine
end
